-- ==== Sys2Proof/Word.lean ====
section
/-! DEFINITION. The 32-bit word of the memory path (00_scope.md, Units and Quantities). -/

namespace Sys2Proof

/-- A word of memory: 32 bits, four bytes (00_scope.md, Units and Quantities). -/
abbrev Word := BitVec 32

end Sys2Proof
end

