-- ==== Sys2Proof/Syntax.lean ====
section
/-! DEFINITION. The commands of the block: one constructor per row of spec/opcode_table.json. -/

namespace Sys2Proof

/-- One word of a write burst: its data and its four byte enables (section 1.1, TRANSACTIONS).
Byte enable `k` goes with bits `8k+7` to `8k` of the word (PRESUMED, log entry 2). -/
structure WriteWord where
  data    : Word
  enables : BitVec 4
  deriving DecidableEq, Repr

/-- The memory's answer to a write (section 1.1). -/
inductive Answer where
  | ok
  | error
  deriving DecidableEq, Repr

/-- The memory's answer to an internal read of `n` words (section 1.1). -/
inductive ReadAnswer (n : Nat) where
  | ok (data : Vector Word n)
  | error
  deriving DecidableEq, Repr

/-- The answer to a passthrough transaction: a read answered OK carries its words, a write answered OK
carries none (section 1.1). -/
inductive PassAnswer where
  | ok (data : List Word)
  | error
  deriving DecidableEq, Repr

/-- The steps of the part, one constructor per row of spec/opcode_table.json, in the table's order.
A step that comes from outside carries what the pins carry; a step of the part's own names only what the
state does not already decide (which window, entry or line a timer belongs to). -/
inductive Instr where
  | resetAssert
  | resetRelease (straps : BitVec 8)
  | tickPulse
  | clockAdvance
  | assemblyTimeout (window : Fin 4)
  | staleExpiry (entry : Fin 256)
  | changeoverTimerExpiry (line : Fin 16)
  | binBoundaryExpiry
  | reportTimerExpiry
  | holdLimitExpiry
  | backoffExpiry
  | upstreamWrite (address : Word) (words : List WriteWord)
  | upstreamRead (address : Word) (enables : List (BitVec 4))
  | holdRelease
  | readHoldRelease
  | arbiterDecision
  | setupCapture
  | clockWordWrite
  | generationWrite
  | consumerIndexWrite
  | latchedAlertRead
  | noCommand
  | closeBins
  | restart
  | reprime
  | transferCounters
  | injectCheckFault
  | undefinedCommand
  | passthroughResponse (answer : PassAnswer)
  | recordTake
  | handOver
  | tallyMissHandOver
  | takeIntoHand
  | recordWriteResponse (answer : Answer)
  | indexWriteResponse (answer : Answer)
  | initialisingWriteResponse (answer : Answer)
  | updateIntoHand
  | reserveReadResponse (answer : ReadAnswer 8)
  | conditionalWriteResponse (answer : Answer)
  | fetchReadResponse (answer : ReadAnswer 16)
  | fetchValidationCompletion
  | mirrorWriteResponse (answer : Answer)
  | validationCompletion
  | quiesceMet
  | installation
  | discardedDownstreamResponse
  deriving DecidableEq, Repr

end Sys2Proof
end

