-- ==== Sys2Proof/Decode.lean ====
section
/-! DEFINITION. The words of the opcode table: no row of spec/opcode_table.json gives any bits. -/

namespace Sys2Proof

/-- The command that a word spells by the bits of spec/opcode_table.json. Every row of the table has an
empty list of fields and no fixed bits, so no word spells a command. -/
def decodeTableWord (_nbits _w : Nat) : Option Instr := none

end Sys2Proof
end

