-- ==== Sys2Proof/Config.lean ====
section
/-! DEFINITION. What the manual leaves open and the part decides: the values of its random generator. -/

namespace Sys2Proof

/-- FREE VALUE (log entry 1). The `n`-th number of the Tally Engine's internal generator (R132), which
software can neither read nor seed. It has no body: nothing in Lean can evaluate it. The backoff is this
number reduced into the range that R132 gives, so every value of the range remains possible. -/
opaque Config.generatorValue : Nat → Nat

end Sys2Proof
end

