-- ==== Sys2Proof/Machine/State.lean ====
section
/-! DEFINITION. The state of the nine units (00_scope.md, Block Overview), as plain data, and its reset values. -/

namespace Sys2Proof.Machine

/-- A block of words inside the part (staged shadow, candidate, active setup): pairs of a word number and
its word, in ONE canonical form, numbers strictly rising and no zero word listed. An unlisted word is zero
(R164). -/
abbrev Image := List (Nat × Word)

/-! ### Memory path (chapter 1) -/

/-- A transaction on either port (section 1.1). -/
inductive Txn where
  | write (address : Nat) (words : List WriteWord)
  | read  (address : Nat) (enables : List (BitVec 4))
  deriving DecidableEq, Repr

/-- The groups of the status block (R169), in the order of R171. -/
inductive Group where
  | latched | realTime | applyResult | commandResult | counters | lostTally | report
  deriving DecidableEq, Repr

/-- What an internal client asked for (R13, R16, R119). -/
inductive Client where
  | fetch
  | mirror (group : Group)
  | reserveRead
  | conditionalWrite
  | recordWrite
  | indexWrite
  | initialisingWrite (line : Fin 16)
  deriving DecidableEq, Repr

/-- The downstream port: it carries one transaction at a time (R1, R13). `orphan` is a transaction granted
before a hard reset, whose response is discarded (R17). -/
inductive Port where
  | free
  | passthrough
  | internal (client : Client) (txn : Txn)
  | orphan
  deriving DecidableEq, Repr

/-- The internal turn (R14). -/
inductive Turn where
  | tallyEngine | resultWriter
  deriving DecidableEq, Repr

/-- A write notice (R3) whose delivery to the Setup Unit and the Result Writer is not complete: its words,
and which deliveries are still to be made (R115, R144, R188). -/
structure Notice where
  address       : Nat
  words         : List WriteWord
  captureDue    : Bool
  clockDue      : Bool
  generationDue : Bool
  commandDue    : Bool
  consumerDue   : Bool
  deriving DecidableEq, Repr

/-- The Pass Controller (section 1 opening, R17) with the two ports. -/
structure Pass where
  slot        : Option Txn
  heldWrite   : Option (Nat × List WriteWord)
  heldRead    : Option (Nat × List (BitVec 4))
  holdTimer   : Option Nat
  releaseDue  : Bool
  spilling    : Bool
  runCount    : Nat
  turn        : Turn
  port        : Port
  notice      : Option Notice
  observation : Option Word
  lastAnswer  : Option PassAnswer
  deriving DecidableEq, Repr

/-! ### Intake (chapter 2) -/

/-- Record kinds (section 2.2). -/
inductive RecordKind where
  | reading | resetNotice
  deriving DecidableEq, Repr

/-- A queued tap record (section 2.4). -/
structure TapRecord where
  kind     : RecordKind
  sequence : BitVec 8
  channel  : Nat
  tags     : List Word
  value    : Word
  deriving DecidableEq, Repr

/-- A partial record: its words so far, header first, the length its header announces, and the expected
address (R22, R23). -/
structure Partial where
  words    : List Word
  length   : Nat
  expected : Nat
  deriving DecidableEq, Repr

/-- One window's assembly buffer, assembly timer and inject flag. A timer of `some 0` has reached zero and
its expiry is to be taken (R27). -/
structure WindowState where
  partialRecord : Option Partial
  timer         : Option Nat
  inject        : Bool
  deriving DecidableEq, Repr

/-- The Intake Unit (section 2 opening, R38). The occupancy is the length of the queue. -/
structure Intake where
  windows     : Vector WindowState 4
  queue       : List TapRecord
  holdRequest : Bool
  accepted    : Word
  deriving DecidableEq, Repr

/-! ### Channels (chapter 4) -/

/-- Meter states (section 4.1). -/
inductive MeterStanding where
  | unseen | live | suspect | stale | retired
  deriving DecidableEq, Repr

/-- The meter state part of a channel entry (section 4.1). A timer of `some 0` has reached zero and its
expiry is to be taken (R65). -/
structure Meter where
  state        : MeterStanding
  baseline     : Nat
  candidate    : Option Nat
  suspectCount : Option Nat
  lastSequence : Option (BitVec 8)
  timer        : Option Nat
  gap          : Nat
  residue      : Nat
  staleInBin   : Bool
  deriving DecidableEq, Repr

/-- The Channel Unit (section 4 opening, R76). -/
structure Channels where
  meters : Vector Meter 256
  inHand : Option TapRecord
  pause  : Bool
  deriving DecidableEq, Repr

/-! ### Lines (chapter 5) -/

/-- Line states (section 5 opening). -/
inductive LineStanding where
  | idle | running | changeover | stopped
  deriving DecidableEq, Repr

/-- Line kinds (section 5.1). -/
inductive LineKind where
  | none | furnace | forming
  deriving DecidableEq, Repr

/-- The three flags of a bin (section 5.4). -/
structure BinFlags where
  saturated  : Bool
  stopped    : Bool
  changeover : Bool
  deriving DecidableEq, Repr

/-- The open bin (section 5.4). -/
structure Bin where
  start          : Nat
  thermal        : Nat
  electric       : Nat
  auxiliary      : Nat
  carriedIn      : Nat
  estimated      : Nat
  changeover     : Nat
  pulledGrams    : Nat
  packedGrams    : Nat
  unweighed      : Nat
  stoppedSeconds : Nat
  reprimes       : Nat
  flags          : BinFlags
  deriving DecidableEq, Repr

/-- The sums that a closed bin, an epoch accumulator and their snapshots have in common (R91, R94).
`share` is the furnace share of a FORMING line or the unapportioned energy of a FURNACE. -/
structure Sums where
  thermal        : Nat
  electric       : Nat
  auxiliary      : Nat
  share          : Nat
  carriedIn      : Nat
  estimated      : Nat
  changeover     : Nat
  pulledKg       : Nat
  packedKg       : Nat
  unweighed      : Nat
  stoppedSeconds : Nat
  reprimes       : Nat
  deriving DecidableEq, Repr

/-- A closing snapshot (R91). -/
structure BinSnapshot where
  start    : Nat
  covered  : Nat
  sums     : Sums
  stale    : Nat
  jobCode  : Nat
  kind     : LineKind
  flags    : BinFlags
  merged   : Nat
  deriving DecidableEq, Repr

/-- An epoch accumulator (R94). -/
structure Epoch where
  start   : Nat
  covered : Nat
  bins    : Nat
  sums    : Sums
  stale   : Nat
  flags   : BinFlags
  deriving DecidableEq, Repr

/-- An epoch snapshot (R93, R94). -/
structure EpochSnapshot where
  epoch  : Epoch
  kind   : LineKind
  merged : Nat
  deriving DecidableEq, Repr

/-- A job accumulator (R100). -/
structure Job where
  code              : Nat
  start             : Nat
  energy            : Nat
  share             : Nat
  changeover        : Nat
  changeoverSeconds : Nat
  pulledGrams       : Nat
  packedGrams       : Nat
  saturated         : Bool
  deriving DecidableEq, Repr

/-- A job snapshot (R101). -/
structure JobSnapshot where
  code              : Nat
  start             : Nat
  finish            : Nat
  energy            : Nat
  share             : Nat
  changeover        : Nat
  changeoverSeconds : Nat
  pulledKg          : Nat
  packedKg          : Nat
  saturated         : Bool
  merged            : Nat
  deriving DecidableEq, Repr

/-- The working part of a line record (section 5 opening). A changeover timer of `some 0` has reached zero
and its expiry is to be taken (R87). -/
structure Line where
  state             : LineStanding
  changeoverPending : Bool
  timer             : Option Nat
  jobCode           : Nat
  unitWeight        : Nat
  bin               : Bin
  closing           : Option BinSnapshot
  epoch             : Epoch
  epochSnap         : Option EpochSnapshot
  job               : Job
  jobSnap           : Option JobSnapshot
  pulledResidue     : Nat
  packedResidue     : Nat
  summarySaturation : Bool
  deriving DecidableEq, Repr

/-- The next bin boundary and the next epoch boundary of a group head, formed exactly (R84). -/
structure Bound where
  bin   : Nat
  epoch : Nat
  deriving DecidableEq, Repr

/-- Which snapshot of a line stands on the hand-over list (R98). -/
inductive SnapshotKind where
  | bin | epoch | job
  deriving DecidableEq, Repr

/-- The Line Unit (section 5 opening, R106). `advancesDue` counts the advances of the clock that TICK
pulses have made and that are still to be taken (R82). -/
structure LineUnit where
  lines       : Vector Line 16
  bounds      : Vector (Option Bound) 16
  clock       : Word
  pulses      : Nat
  advancesDue : Nat
  handOver    : List (SnapshotKind × Fin 16)
  deriving DecidableEq, Repr

/-! ### Result rings (chapter 6) -/

/-- The kinds of a result record (R109). -/
inductive ResultKind where
  | bin | epoch | job | tallyMiss
  deriving DecidableEq, Repr

/-- A record of the writer queue: its kind, its line and its 16 words. The lost-before count and the check
word are zero until the Result Writer completes the record (R109, R112). -/
structure ResultRecord where
  kind  : ResultKind
  line  : Fin 16
  words : List Word
  deriving DecidableEq, Repr

/-- The write step of the record in hand (section 6 opening). -/
inductive WriteStep where
  | recordWrite | recordRetry | indexWrite | indexRetry
  deriving DecidableEq, Repr

/-- The fields of a ring (R108, R119). -/
structure Ring where
  producer    : BitVec 16
  shadow      : BitVec 16
  overrun     : Nat
  pendingLost : Nat
  reserved    : Bool
  initOwed    : Bool
  deriving DecidableEq, Repr

/-- The Result Writer (section 6 opening, R121). A record is in hand, the head of the queue, while `step`
is present. -/
structure Writer where
  queue : List ResultRecord
  step  : Option WriteStep
  rings : Vector Ring 16
  deriving DecidableEq, Repr

/-! ### Tally Engine (chapter 7) -/

/-- A tally update (R126). -/
structure Update where
  entry      : Nat
  line       : Fin 16
  energy     : Nat
  pulled     : Nat
  packed     : Nat
  changeover : Nat
  count      : Nat
  time       : Nat
  deriving DecidableEq, Repr

/-- Engine states (section 7.3). -/
inductive EngineState where
  | idle | readWait | readOut | writeWait | backoff
  deriving DecidableEq, Repr

/-- The one reservation: the entry it names, and whether it is intact (R128, R130). -/
structure Reservation where
  entry  : Nat
  intact : Bool
  deriving DecidableEq, Repr

/-- The reasons of a miss (R136). -/
inductive MissReason where
  | contention | readFault | writeFault
  deriving DecidableEq, Repr

/-- An entry of the miss list (section 7.4). The list's order is the join order. -/
structure Miss where
  entry      : Nat
  line       : Fin 16
  contention : Bool
  readFault  : Bool
  writeFault : Bool
  locked     : Bool
  count      : Nat
  energy     : Nat
  pulled     : Nat
  packed     : Nat
  changeover : Nat
  counted    : Nat
  saturated  : Bool
  time       : Nat
  deriving DecidableEq, Repr

/-- The last reason of the lost-tally totals (R138). -/
inductive LostReason where
  | none | queueFull | listFull
  deriving DecidableEq, Repr

/-- The lost-tally totals (R138). -/
structure Lost where
  energy : Nat
  pulled : Nat
  packed : Nat
  count  : Nat
  reason : LostReason
  deriving DecidableEq, Repr

/-- The Tally Engine (section 7 opening, R142). The update in hand is the head of the queue while the engine
is not IDLE. `draws` is the model's own: how many numbers the internal generator has given (log entry 1). -/
structure Tally where
  queue       : List Update
  state       : EngineState
  losses      : Nat
  lockedLoss  : Bool
  computed    : Option (List Word)
  reservation : Option Reservation
  backoff     : Option Nat
  misses      : List Miss
  lost        : Lost
  draws       : Nat
  deriving DecidableEq, Repr

/-! ### Setup Unit (chapter 8) -/

/-- The phases of an apply (section 8 opening). -/
inductive Phase where
  | validate | quiesce | drain
  deriving DecidableEq, Repr

/-- The part state (R145). -/
inductive Part where
  | fetching | unset | active | applying (phase : Phase)
  deriving DecidableEq, Repr

/-- The Setup Unit (section 8 opening, R164). The generation is word 1 of the active setup. -/
structure Setup where
  base          : BitVec 8
  shadow        : Image
  candidate     : Option Image
  active        : Option Image
  part          : Part
  fetchPosition : Nat
  pendingApply  : Bool
  lastCommand   : Word
  waiting       : Option (Word × Word)
  deriving DecidableEq, Repr

/-! ### Alert Unit (chapter 9) -/

/-- The latched bits (R165), in the order of their numbers 0 to 21. -/
inductive AlertBit where
  | checkFail | stray | admitDrop | sequence | suspect | reprimed | staleEnter | misfire
  | ringOverrun | consumerInvalid | tallyMiss | saturation | setupApplied | setupRejected
  | memoryFault | guard | counterFull | clockStep | holdEdge | spillEdge | staleEdge | commandDone
  deriving DecidableEq, Repr

/-- The defect classes (section 9.5). -/
inductive DefectClass where
  | checkFail | stray | admitDrop | duplicateLate | sequenceGap | implausible | faultTagged
  | spilled | tallyLoss
  deriving DecidableEq, Repr

/-- A defect counter and its latched copy (R177, R178). -/
structure Counter where
  count : Nat
  latch : Nat
  deriving DecidableEq, Repr

/-- The owed flags of the seven groups (R170). -/
structure Owed where
  latched       : Bool
  realTime      : Bool
  applyResult   : Bool
  commandResult : Bool
  counters      : Bool
  lostTally     : Bool
  report        : Bool
  deriving DecidableEq, Repr

/-- The held apply result (R170, R186). -/
structure ApplyResult where
  generation : Word
  code       : Nat
  index      : Nat
  deriving DecidableEq, Repr

/-- Command results (section 10.5). -/
inductive CommandOutcome where
  | none | done | refusedUnset | badArgument
  deriving DecidableEq, Repr

/-- The held command result (R170, R186). -/
structure CommandResult where
  word   : Word
  result : CommandOutcome
  deriving DecidableEq, Repr

/-- The Alert Unit (section 9 opening, R180). `mirror` is the group of the mirror write in hand. -/
structure Alerts where
  latched       : BitVec 22
  counters      : Vector Counter 4
  reportTimer   : Option Nat
  owed          : Owed
  mirror        : Option Group
  readHold      : Bool
  applyResult   : ApplyResult
  commandResult : CommandResult
  deriving DecidableEq, Repr

/-! ### The part -/

/-- The state of the part: the queue of waiting commands, the RESET input, and the units. -/
structure State where
  pending  : List Instr
  inReset  : Bool
  pass     : Pass
  intake   : Intake
  channels : Channels
  lines    : LineUnit
  writer   : Writer
  tally    : Tally
  setup    : Setup
  alerts   : Alerts
  deriving DecidableEq, Repr

/-- Why the part's model stops with a fault. -/
inductive Fault where
  /-- Raised by `execUpstreamWrite` and `execUpstreamRead` for a burst that the upstream port has no pins to
  carry: 0 or more than 16 words, or an address that is not a word address (log entry 9). Safe: no such
  transaction exists. -/
  | illFormedBurst
  deriving DecidableEq, Repr

/-- Why the model refuses a command. -/
inductive Refusal where
  /-- Raised for a command that has no meaning yet, by name. No arm raises it. Safe. -/
  | notModelled (mnemonic : String)
  deriving DecidableEq, Repr

/-! ### Hard-reset values -/

/-- R17. The `port` is given apart, since a granted transaction ends at the memory. -/
def Pass.hardReset (port : Port) : Pass :=
  { slot := none, heldWrite := none, heldRead := none, holdTimer := none, releaseDue := false,
    spilling := false, runCount := 0, turn := .tallyEngine, port := port, notice := none,
    observation := none, lastAnswer := none }

/-- R38. -/
def WindowState.empty : WindowState := { partialRecord := none, timer := none, inject := false }

/-- R38. -/
def Intake.hardReset : Intake :=
  { windows := Vector.replicate 4 .empty, queue := [], holdRequest := false, accepted := 0 }

/-- R76. -/
def Meter.hardReset : Meter :=
  { state := .retired, baseline := 0, candidate := none, suspectCount := none, lastSequence := none,
    timer := none, gap := 0, residue := 0, staleInBin := false }

/-- R76. -/
def Channels.hardReset : Channels :=
  { meters := Vector.replicate 256 .hardReset, inHand := none, pause := false }

/-- No flag set. -/
def BinFlags.clear : BinFlags := { saturated := false, stopped := false, changeover := false }

/-- A bin started at `now` with every sum and count 0 (R96, R105). -/
def Bin.opened (now : Nat) (flags : BinFlags) : Bin :=
  { start := now, thermal := 0, electric := 0, auxiliary := 0, carriedIn := 0, estimated := 0,
    changeover := 0, pulledGrams := 0, packedGrams := 0, unweighed := 0, stoppedSeconds := 0,
    reprimes := 0, flags := flags }

/-- Sums of nothing. -/
def Sums.zero : Sums :=
  { thermal := 0, electric := 0, auxiliary := 0, share := 0, carriedIn := 0, estimated := 0,
    changeover := 0, pulledKg := 0, packedKg := 0, unweighed := 0, stoppedSeconds := 0, reprimes := 0 }

/-- An epoch accumulator cleared with start time `now` (R94). -/
def Epoch.opened (now : Nat) : Epoch :=
  { start := now, covered := 0, bins := 0, sums := .zero, stale := 0, flags := .clear }

/-- A job accumulator cleared with start time `now` and job code 0 (R103). -/
def Job.opened (now : Nat) : Job :=
  { code := 0, start := now, energy := 0, share := 0, changeover := 0, changeoverSeconds := 0,
    pulledGrams := 0, packedGrams := 0, saturated := false }

/-- R106. -/
def Line.hardReset : Line :=
  { state := .idle, changeoverPending := false, timer := none, jobCode := 0, unitWeight := 0,
    bin := .opened 0 .clear, closing := none, epoch := .opened 0, epochSnap := none, job := .opened 0,
    jobSnap := none, pulledResidue := 0, packedResidue := 0, summarySaturation := false }

/-- R106. -/
def LineUnit.hardReset : LineUnit :=
  { lines := Vector.replicate 16 .hardReset, bounds := Vector.replicate 16 none, clock := 0, pulses := 0,
    advancesDue := 0, handOver := [] }

/-- R119, R121. -/
def Ring.cleared : Ring :=
  { producer := 0, shadow := 0, overrun := 0, pendingLost := 0, reserved := false, initOwed := false }

/-- R121. -/
def Writer.hardReset : Writer :=
  { queue := [], step := none, rings := Vector.replicate 16 .cleared }

/-- R142. `draws` is the model's own count, kept over a reset (log entry 1). -/
def Tally.hardReset (draws : Nat) : Tally :=
  { queue := [], state := .idle, losses := 0, lockedLoss := false, computed := none,
    reservation := none, backoff := none, misses := [],
    lost := { energy := 0, pulled := 0, packed := 0, count := 0, reason := .none }, draws := draws }

/-- R164. `base` is the placement as last sampled. -/
def Setup.hardReset (base : BitVec 8) : Setup :=
  { base := base, shadow := [], candidate := none, active := none, part := .fetching, fetchPosition := 0,
    pendingApply := false, lastCommand := 0, waiting := none }

/-- No group owed (R180). -/
def Owed.nothing : Owed :=
  { latched := false, realTime := false, applyResult := false, commandResult := false,
    counters := false, lostTally := false, report := false }

/-- R180. -/
def Alerts.hardReset : Alerts :=
  { latched := 0, counters := Vector.replicate 4 { count := 0, latch := 0 }, reportTimer := none,
    owed := .nothing, mirror := none, readHold := false,
    applyResult := { generation := 0, code := 0, index := 0 },
    commandResult := { word := 0, result := .none } }

/-- Every unit in its hard-reset values, RESET asserted or not. -/
def State.hardReset (pending : List Instr) (inReset : Bool) (port : Port) (base : BitVec 8)
    (draws : Nat) : State :=
  { pending := pending, inReset := inReset, pass := .hardReset port, intake := .hardReset,
    channels := .hardReset, lines := .hardReset, writer := .hardReset, tally := .hardReset draws,
    setup := .hardReset base, alerts := .hardReset }

/-- The part at power-on: every unit in its hard-reset values, RESET asserted, the downstream port free, the
queue empty (R17, R38, R76, R106, R121, R142, R164, R180; log entry 4). -/
def State.reset : State := .hardReset [] true .free 0 0

end Sys2Proof.Machine
end

