-- ==== Sys2Proof/Machine/Operands.lean ====
section
/-! DEFINITION. Bit fields, byte merging, tables of units, images of the setup block and the views of an
active setup: every field of chapter 10.4 has its one reader here. -/

namespace Sys2Proof.Machine

/-! ### Words and tables -/

/-- Bits `hi` to `lo` of a word as a number (00_scope.md, Words, bits and order). -/
def bits (w : Word) (hi lo : Nat) : Nat := w.toNat / 2 ^ lo % 2 ^ (hi - lo + 1)

/-- The greatest value of an `n`-bit field. -/
def top (n : Nat) : Nat := 2 ^ n - 1

/-- Saturating addition at a field's maximum (00_scope.md, Numbers). -/
def satAdd (max a b : Nat) : Nat := min (a + b) max

/-- The addition exceeds the maximum. -/
def satOver (max a b : Nat) : Bool := decide (max < a + b)

/-- The bytes of `new` whose enables are set replace those of `old` (R83, R144). -/
def mergeBytes (old : Word) (new : WriteWord) : Word :=
  let mask : Word :=
    (if new.enables.getLsbD 0 then 0x000000FF#32 else 0) ||| (if new.enables.getLsbD 1 then 0x0000FF00#32 else 0) |||
    (if new.enables.getLsbD 2 then 0x00FF0000#32 else 0) ||| (if new.enables.getLsbD 3 then 0xFF000000#32 else 0)
  (new.data &&& mask) ||| (old &&& ~~~mask)

/-- Written with all four byte enables. -/
def allEnabled (w : WriteWord) : Bool := w.enables == 0xF#4

/-- Writes at least one byte. -/
def anyEnabled (w : WriteWord) : Bool := w.enables != 0#4

/-- A word written with all byte enables, as the part's own writes are. -/
def fullWord (d : Word) : WriteWord := { data := d, enables := 0xF#4 }

/-- A table of `n` entries from a function of the entry's number. -/
def tabulate {α : Type} (n : Nat) (f : Fin n → α) : Vector α n := ⟨⟨(List.finRange n).map f⟩, by simp⟩

/-- The sixteen lines in increasing number. -/
def allLines : List (Fin 16) := List.finRange 16

/-- The 256 channel entries in increasing index. -/
def allEntries : List (Fin 256) := List.finRange 256

/-- A line number from a number. -/
def lineOf (n : Nat) : Fin 16 := Fin.ofNat 16 n

/-- Two spans of addresses share a byte: `a` for `la` bytes and `b` for `lb` bytes. A span of no bytes shares none. -/
def overlaps (a la b lb : Nat) : Bool :=
  decide (0 < la) && decide (0 < lb) && decide (a < b + lb) && decide (b < a + la)

/-! ### Images of the setup block -/

/-- The word of number `i`: zero where the image lists none. -/
def Image.get : Image → Nat → Word
  | [], _ => 0
  | (j, w) :: rest, i => if i = j then w else Image.get rest i

/-- Removes the word of number `i`. -/
def Image.erase : Image → Nat → Image
  | [], _ => []
  | (j, w) :: rest, i => if i = j then rest else (j, w) :: Image.erase rest i

/-- Puts a nonzero word in its place. -/
def Image.insert : Image → Nat → Word → Image
  | [], i, w => [(i, w)]
  | (j, v) :: rest, i, w =>
    if i < j then (i, w) :: (j, v) :: rest
    else if i = j then (i, w) :: rest
    else (j, v) :: Image.insert rest i w

/-- Writes the word of number `i`, keeping the canonical form: a zero word is not listed. -/
def Image.set (m : Image) (i : Nat) (w : Word) : Image :=
  if w = 0 then Image.erase m i else Image.insert m i w

/-- The words below number `n` (R149 copies words 0 to 1351). -/
def Image.below (m : Image) (n : Nat) : Image := m.filter (fun c => decide (c.1 < n))

/-- Every listed number is above `lo`, the numbers rise, and no listed word is zero. -/
def Image.risingFrom : Nat → Image → Bool
  | _, [] => true
  | lo, (j, w) :: rest => decide (lo ≤ j) && decide (w ≠ 0) && Image.risingFrom (j + 1) rest

/-- The canonical form of an image. -/
def Image.wf (m : Image) : Bool := Image.risingFrom 0 m

/-! ### Placement (R19) -/

/-- The setup block's byte address: SETUP_BASE × 16 MiB. -/
def Setup.blockAddress (u : Setup) : Nat := u.base.toNat * 2 ^ 24

/-- The status block's byte address: directly after the 2048 setup words. -/
def Setup.statusAddress (u : Setup) : Nat := u.blockAddress + 8192

/-- The active setup where the part works under one: while it is ACTIVE or APPLYING. Under none, every field
reads as zero: no window, matcher, ring or tally table, every line NONE, every channel entry disabled, mask
clear and edge selects rising (R147, R149, R166, R168). -/
def Setup.inForce (u : Setup) : Image :=
  match u.part with
  | .active => u.active.getD []
  | .applying _ => u.active.getD []
  | .fetching => []
  | .unset => []

/-- The active setup in force. -/
def State.cfg (s : State) : Image := s.setup.inForce

/-! ### Header fields (section 10.4) -/

/-- Word 0, the magic word (section 8.1). -/
def Image.magic (m : Image) : Word := m.get 0
/-- Word 1, the generation (section 8.1). -/
def Image.generation (m : Image) : Word := m.get 1
/-- Word 5, the tally base (section 8.1). -/
def Image.tallyBase (m : Image) : Nat := (m.get 5).toNat
/-- Guard policy REFUSE. -/
def Image.refuses (m : Image) : Bool := m.get 6 == 1
/-- Word 7, the hold high-water mark (section 8.1). -/
def Image.highWater (m : Image) : Nat := (m.get 7).toNat
/-- Word 8, the hold low-water mark (section 8.1). -/
def Image.lowWater (m : Image) : Nat := (m.get 8).toNat
/-- Word 9, the hold limit in fine intervals (section 8.1). -/
def Image.holdLimit (m : Image) : Nat := (m.get 9).toNat
/-- Word 10, the reprime threshold (section 8.1). -/
def Image.reprimeThreshold (m : Image) : Nat := (m.get 10).toNat
/-- The first class code of a counter (section 10.4). -/
def Image.firstClass (m : Image) (i : Fin 4) : Nat := bits (m.get (11 + i)) 3 0
/-- The second class code of a counter, 0 for none (section 10.4). -/
def Image.secondClass (m : Image) (i : Fin 4) : Nat := bits (m.get (11 + i)) 7 4
/-- The mode of a counter: 0 manual, 1 automatic (section 10.4). -/
def Image.counterMode (m : Image) (i : Fin 4) : Nat := bits (m.get (11 + i)) 17 16
/-- Counter `i` is transferred by the report timer (R178). -/
def Image.automatic (m : Image) (i : Fin 4) : Bool := m.counterMode i == 1
/-- Word 15, the report interval in seconds (section 10.4). -/
def Image.reportInterval (m : Image) : Nat := bits (m.get 15) 15 0
/-- Word 16, the alert mask (section 10.4). -/
def Image.alertMask (m : Image) : BitVec 22 := (m.get 16).truncate 22
/-- The edge select of HOLDING: 1 rising, 2 both (section 10.4). -/
def Image.holdEdgeSelect (m : Image) : Nat := bits (m.get 17) 1 0
/-- The edge select of SPILLING (section 10.4). -/
def Image.spillEdgeSelect (m : Image) : Nat := bits (m.get 17) 3 2
/-- The edge select of ANY_STALE (section 10.4). -/
def Image.staleEdgeSelect (m : Image) : Nat := bits (m.get 17) 5 4

/-- The admit map's bit of channel number `n`. -/
def Image.admits (m : Image) (n : Nat) : Bool := (m.get (1224 + n / 32)).getLsbD (n % 32)


/-! ### Windows -/

/-- A window descriptor (section 2.1). -/
structure Window where
  enabled : Bool
  base    : Nat
  size    : Nat
  timeout : Nat
  deriving DecidableEq, Repr

/-- Window descriptor `i` (section 10.4). -/
def Image.window (m : Image) (i : Fin 4) : Window :=
  { enabled := bits (m.get (33 + 2 * i)) 31 31 == 1, base := (m.get (32 + 2 * i)).toNat,
    size := bits (m.get (33 + 2 * i)) 16 0, timeout := bits (m.get (33 + 2 * i)) 27 20 }

/-- The address of the window's last word (section 2.1). -/
def Window.last (w : Window) : Nat := w.base + 4 * (w.size - 1)

/-- The address lies in the enabled window. -/
def Window.holds (w : Window) (a : Nat) : Bool :=
  w.enabled && decide (w.base ≤ a) && decide (a < w.base + 4 * w.size)

/-- The enabled window in which the address lies. -/
def Image.windowAt (m : Image) (a : Nat) : Option (Fin 4) :=
  (List.finRange 4).find? (fun i => (m.window i).holds a)

/-! ### Matchers -/

/-- The action of a matcher, as encoded (section 10.4). -/
inductive MatchAction where
  | invalid | jobMark | lineStop | lineStart
  deriving DecidableEq, Repr

/-- A matcher descriptor (section 3.1). -/
structure Matcher where
  enabled      : Bool
  base         : Nat
  size         : Nat
  offset       : Nat
  mask         : BitVec 16
  expected     : Nat
  action       : MatchAction
  target       : Fin 16
  codeOffset   : Nat
  weightOffset : Nat
  deriving DecidableEq, Repr

/-- The action that an encoding names. -/
def actionOf : Nat → MatchAction
  | 1 => .jobMark
  | 2 => .lineStop
  | 3 => .lineStart
  | _ => .invalid

/-- Matcher descriptor `i` (section 10.4). -/
def Image.matcher (m : Image) (i : Fin 16) : Matcher :=
  let w1 := m.get (41 + 6 * i)
  let w2 := m.get (42 + 6 * i)
  { enabled := bits w1 31 31 == 1, base := (m.get (40 + 6 * i)).toNat, size := bits w1 11 0 + 1,
    offset := bits w2 19 16, mask := w2.truncate 16, expected := bits (m.get (43 + 6 * i)) 15 0,
    action := actionOf (bits w1 29 28), target := lineOf (bits w1 27 24),
    codeOffset := bits w2 23 20, weightOffset := bits w2 27 24 }

/-! ### Lines -/

/-- The raw kind of line `n`: 0 NONE, 1 FURNACE, 2 FORMING (section 10.4). -/
def Image.lineCode (m : Image) (n : Fin 16) : Nat := bits (m.get (136 + 4 * n)) 1 0

/-- The kind that an encoding names. Encoding 3 fails validation (R185). -/
def kindOf : Nat → LineKind
  | 1 => .furnace
  | 2 => .forming
  | _ => .none

/-- The kind of line `n`. -/
def Image.kind (m : Image) (n : Fin 16) : LineKind := kindOf (m.lineCode n)

/-- Parent present. -/
def Image.parentPresent (m : Image) (n : Fin 16) : Bool := bits (m.get (136 + 4 * n)) 7 7 == 1

/-- The parent-line bits. -/
def Image.parentLine (m : Image) (n : Fin 16) : Fin 16 := lineOf (bits (m.get (136 + 4 * n)) 11 8)

/-- The parent of a FORMING line, read only where parent present is set (R185). -/
def Image.parent (m : Image) (n : Fin 16) : Option (Fin 16) :=
  if m.kind n = .forming ∧ m.parentPresent n then some (m.parentLine n) else none

/-- Epoch length in bins (section 10.4). -/
def Image.epochLength (m : Image) (n : Fin 16) : Nat := bits (m.get (136 + 4 * n)) 22 16
/-- Bin length in seconds (section 10.4). -/
def Image.binLength (m : Image) (n : Fin 16) : Nat := bits (m.get (137 + 4 * n)) 15 0
/-- Changeover duration in seconds (section 10.4). -/
def Image.changeoverDuration (m : Image) (n : Fin 16) : Nat := bits (m.get (137 + 4 * n)) 31 16
/-- Ring base, a byte address (section 10.4). -/
def Image.ringBase (m : Image) (n : Fin 16) : Nat := (m.get (138 + 4 * n)).toNat
/-- Ring size in records (section 10.4). -/
def Image.ringSize (m : Image) (n : Fin 16) : Nat := bits (m.get (139 + 4 * n)) 15 0

/-- The ring's span in bytes: the index slot and the record slots (R80). -/
def Image.ringSpan (m : Image) (n : Fin 16) : Nat := (m.ringSize n + 1) * 64

/-- Line `n` heads a group: a FURNACE, or a FORMING line with no parent (R81). -/
def Image.isHead (m : Image) (n : Fin 16) : Bool :=
  match m.kind n with
  | .furnace => true
  | .forming => (m.parent n).isNone
  | .none => false

/-- The members of the group that `h` heads, in increasing line number (R81). -/
def Image.members (m : Image) (h : Fin 16) : List (Fin 16) :=
  if m.isHead h then allLines.filter (fun n => n == h || m.parent n == some h) else []

/-- A ring is in force for the line: its kind is not NONE (R107). -/
def Image.ringInForce (m : Image) (n : Fin 16) : Bool := m.kind n != .none

/-! ### Channels -/

/-- What the meter counts (section 4.1). -/
inductive ChannelKind where
  | energy | massDirect | massCount | invalid
  deriving DecidableEq, Repr

/-- The kind that an encoding names. -/
def channelKindOf : Nat → ChannelKind
  | 0 => .energy
  | 1 => .massDirect
  | 2 => .massCount
  | _ => .invalid

/-- The setup part of a channel entry (section 4.1). `role` is the class of an ENERGY entry and the mass
role of the others, as encoded. -/
structure ChannelSetup where
  enabled   : Bool
  channel   : Nat
  line      : Fin 16
  kind      : ChannelKind
  role      : Nat
  width     : Nat
  factor    : Nat
  ceiling   : Nat
  tolerance : Nat
  timeout   : Nat
  deriving DecidableEq, Repr

/-- Channel entry `e` (section 10.4). -/
def Image.channel (m : Image) (e : Fin 256) : ChannelSetup :=
  let w0 := m.get (200 + 4 * e)
  let w3 := m.get (203 + 4 * e)
  { enabled := bits w0 31 31 == 1, channel := bits w0 11 0, line := lineOf (bits w0 15 12),
    kind := channelKindOf (bits w0 17 16), role := bits w0 19 18, width := bits w0 29 24,
    factor := (m.get (201 + 4 * e)).toNat, ceiling := (m.get (202 + 4 * e)).toNat,
    tolerance := bits w3 15 0, timeout := bits w3 31 16 }

/-- Entry `e` is enabled. -/
def Image.channelEnabled (m : Image) (e : Fin 256) : Bool := bits (m.get (200 + 4 * e)) 31 31 == 1

/-- The enabled entry that holds a channel number (R53). -/
def Image.entryOf (m : Image) (channel : Nat) : Option (Fin 256) :=
  allEntries.find? (fun e => m.channelEnabled e && bits (m.get (200 + 4 * e)) 11 0 == channel)

end Sys2Proof.Machine
end

