-- ==== Sys2Proof/Machine/Flags.lean ====
section
/-! DEFINITION. Check sums, the CRC, and the Alert Unit's own operations: latching, counting, edges, owed groups. -/

namespace Sys2Proof.Machine

/-! ### Check word and CRC-16 -/

/-- Addition of 16-bit halves with the carry out of bit 15 added back into bit 0 (00_scope.md, Check word). -/
def onesAdd (a b : Nat) : Nat := (a + b) % 65536 + (a + b) / 65536

/-- The high half and the low half of a word. -/
def halves (w : Word) : List Nat := [bits w 31 16, bits w 15 0]

/-- The ones-complement sum of all halves of a span. -/
def onesSum (ws : List Word) : Nat := (ws.flatMap halves).foldl onesAdd 0

/-- A span is valid when the sum of all its halves, the check word included, is FFFFh. -/
def spanValid (ws : List Word) : Bool := onesSum ws == 0xFFFF

/-- One bit fed to the CRC-16 register (R46, step 4). -/
def crcBit (reg : BitVec 16) (b : Bool) : BitVec 16 :=
  let shifted := reg <<< 1
  if reg.getLsbD 15 != b then shifted ^^^ 0x8005#16 else shifted

/-- The bits of a word as they are fed: most significant byte first, each byte's bit 7 first (R46). -/
def crcOrder (w : Word) : List Bool := (List.range 32).map (fun k => w.getLsbD (31 - k))

/-- The CRC-16 of the selected words, from FFFFh, with no final inversion (R46). -/
def crc16 (ws : List Word) : BitVec 16 := (ws.flatMap crcOrder).foldl crcBit 0xFFFF#16

/-! ### The latched word (R165, R166) -/

/-- The number of a latched bit (R165). -/
def AlertBit.number : AlertBit → Nat
  | .checkFail => 0 | .stray => 1 | .admitDrop => 2 | .sequence => 3 | .suspect => 4 | .reprimed => 5
  | .staleEnter => 6 | .misfire => 7 | .ringOverrun => 8 | .consumerInvalid => 9 | .tallyMiss => 10
  | .saturation => 11 | .setupApplied => 12 | .setupRejected => 13 | .memoryFault => 14 | .guard => 15
  | .counterFull => 16 | .clockStep => 17 | .holdEdge => 18 | .spillEdge => 19 | .staleEdge => 20
  | .commandDone => 21

/-- The latched word with the bit alone. -/
def AlertBit.mask (b : AlertBit) : BitVec 22 := BitVec.twoPow 22 b.number

/-- The bit is latched. -/
def Alerts.has (a : Alerts) (b : AlertBit) : Bool := a.latched.getLsbD b.number

/-- A report of an event that names a latched bit: a bit already set changes nothing; a bit that becomes set
makes the latched group owed (R165). -/
def Alerts.latch (b : AlertBit) (a : Alerts) : Alerts :=
  if a.has b then a
  else { a with latched := a.latched ||| b.mask, owed := { a.owed with latched := true } }

/-- Latches the bit where the condition holds. -/
def Alerts.latchIf (c : Bool) (b : AlertBit) (a : Alerts) : Alerts := if c then a.latch b else a

/-! ### Defect counters (R37, R74, R139, R177) -/

/-- The class codes (section 10.4). -/
def DefectClass.code : DefectClass → Nat
  | .checkFail => 1 | .stray => 2 | .admitDrop => 3 | .duplicateLate => 4 | .sequenceGap => 5
  | .implausible => 6 | .faultTagged => 7 | .spilled => 8 | .tallyLoss => 9

/-- The latched bit that a report of the class names, if any (R37, R74, R139). -/
def DefectClass.bit : DefectClass → Option AlertBit
  | .checkFail => some .checkFail | .stray => some .stray | .admitDrop => some .admitDrop
  | .duplicateLate => some .sequence | .sequenceGap => some .sequence | .implausible => some .suspect
  | .faultTagged => none | .spilled => none | .tallyLoss => none

/-- Counter `i` selects the class under the setup `m`. -/
def Image.selects (m : Image) (i : Fin 4) (c : DefectClass) : Bool :=
  m.firstClass i == c.code || m.secondClass i == c.code

/-- One defect event counted: the count rises by one, saturating at 65535 (R177). -/
def Counter.increment (c : Counter) : Counter := { c with count := satAdd (top 16) c.count 1 }

/-- The defect event is counted by every counter that selects its class; a count that is brought to 65535, or
stands there, latches COUNTER_FULL (R177). -/
def Alerts.count (m : Image) (c : DefectClass) (a : Alerts) : Alerts :=
  let a' := { a with counters := tabulate 4 (fun i =>
    if m.selects i c then a.counters[i].increment else a.counters[i]) }
  a'.latchIf ((List.finRange 4).any (fun i => m.selects i c && decide (top 16 ≤ a.counters[i].count + 1)))
    .counterFull

/-- A reported defect event: counted, and its bit latched (R165, R177). -/
def Alerts.report (m : Image) (c : DefectClass) (a : Alerts) : Alerts :=
  match c.bit with
  | some b => (a.count m c).latch b
  | none => a.count m c

/-- Several defect events, one after the other. -/
def Alerts.reportAll (m : Image) (cs : List DefectClass) (a : Alerts) : Alerts :=
  cs.foldl (fun a c => a.report m c) a

/-- A transfer of the counters named: each count goes to its latched copy and becomes 0; a latched copy that
changes makes the counters group owed (R178). -/
def Alerts.transfer (which : Fin 4 → Bool) (a : Alerts) : Alerts :=
  let changed := (List.finRange 4).any (fun i => which i && a.counters[i].count != a.counters[i].latch)
  { a with
    counters := tabulate 4 (fun i =>
      if which i then { count := 0, latch := a.counters[i].count } else a.counters[i]),
    owed := { a.owed with counters := a.owed.counters || changed } }

/-! ### Real-time conditions and edges (R167, R168) -/

/-- A condition with its edge bit and its edge select of the setup in force. -/
inductive Condition where
  | holding | spilling | anyStale
  deriving DecidableEq, Repr

/-- The edge bit of a condition (R168). -/
def Condition.bit : Condition → AlertBit
  | .holding => .holdEdge | .spilling => .spillEdge | .anyStale => .staleEdge

/-- The edge select of a condition is `both` (R168; encoding 2). -/
def Image.selectsBoth (m : Image) : Condition → Bool
  | .holding => m.holdEdgeSelect == 2
  | .spilling => m.spillEdgeSelect == 2
  | .anyStale => m.staleEdgeSelect == 2

/-- The real-time word has changed: its group is owed (R167, R170). -/
def Alerts.oweRealTime (a : Alerts) : Alerts := { a with owed := { a.owed with realTime := true } }

/-- A condition rises: its edge bit is latched (R168). -/
def Alerts.rise (c : Condition) (a : Alerts) : Alerts := a.oweRealTime.latch c.bit

/-- A condition falls: its edge bit is latched where its edge select is both (R168). -/
def Alerts.fall (m : Image) (c : Condition) (a : Alerts) : Alerts :=
  a.oweRealTime.latchIf (m.selectsBoth c) c.bit

/-- A condition that stood at `before` now stands at `after`. -/
def Alerts.follow (m : Image) (c : Condition) (before after : Bool) (a : Alerts) : Alerts :=
  match before, after with
  | false, true => a.rise c
  | true, false => a.fall m c
  | _, _ => a

/-! ### Mirror groups (R170, R171) -/

/-- The owed flag of a group. -/
def Owed.has (o : Owed) : Group → Bool
  | .latched => o.latched | .realTime => o.realTime | .applyResult => o.applyResult
  | .commandResult => o.commandResult | .counters => o.counters | .lostTally => o.lostTally
  | .report => o.report

/-- The owed flags with one group's flag clear. -/
def Owed.without (o : Owed) : Group → Owed
  | .latched => { o with latched := false } | .realTime => { o with realTime := false }
  | .applyResult => { o with applyResult := false } | .commandResult => { o with commandResult := false }
  | .counters => { o with counters := false } | .lostTally => { o with lostTally := false }
  | .report => { o with report := false }

/-- Every group owed (R173). -/
def Owed.everything : Owed :=
  { latched := true, realTime := true, applyResult := true, commandResult := true, counters := true,
    lostTally := true, report := true }

/-- The groups in the order of R171. -/
def groupOrder : List Group :=
  [.latched, .realTime, .applyResult, .commandResult, .counters, .lostTally, .report]

/-- While no mirror write is in hand and some group is owed, a mirror write of the first owed group is
requested (R171), but none while the part is FETCHING (R173). -/
def Alerts.request (part : Part) (a : Alerts) : Alerts :=
  match part, a.mirror with
  | .fetching, _ => a
  | _, some _ => a
  | _, none => { a with mirror := groupOrder.find? a.owed.has }

/-- A command result is handed over and COMMAND_DONE latched (R163, R170). -/
def Alerts.giveResult (word : Word) (r : CommandOutcome) (a : Alerts) : Alerts :=
  { a with commandResult := { word := word, result := r },
           owed := { a.owed with commandResult := true } }.latch .commandDone

/-- The result of a fetch or an apply is handed over (R170, R186). -/
def Alerts.giveApplyResult (generation : Word) (code index : Nat) (a : Alerts) : Alerts :=
  { a with applyResult := { generation := generation, code := code, index := index },
           owed := { a.owed with applyResult := true } }

/-! ### Views of the whole state -/

/-- ANY_STALE: at least one enabled channel entry is STALE; a disabled one is RETIRED (R69, R167). -/
def Channels.anyStale (c : Channels) : Bool := c.meters.toList.any (fun m => m.state == .stale)

/-- The ALERT output: some latched bit is set whose mask bit is clear (R166); deasserted while RESET is
asserted (R187). -/
def State.alertOutput (s : State) : Bool := !s.inReset && (s.alerts.latched &&& ~~~s.cfg.alertMask != 0)

/-- The part-state encoding of the status block (section 10.5). -/
def Part.code : Part → Nat
  | .fetching => 0 | .unset => 1 | .active => 2 | .applying _ => 3

/-- The part is APPLYING. -/
def Part.isApplying : Part → Bool
  | .applying _ => true
  | _ => false

/-- The real-time word as the status block lays it out (section 10.5): a view of its owners (R167). -/
def State.realTimeWord (s : State) : Word :=
  BitVec.ofNat 32 (s.pass.heldWrite.isSome.toNat + 2 * s.pass.spilling.toNat +
    4 * s.channels.anyStale.toNat + 8 * s.setup.part.isApplying.toNat + 256 * s.setup.part.code)

/-- Latches a bit in the state. -/
def State.latch (b : AlertBit) (s : State) : State := { s with alerts := s.alerts.latch b }

/-- The end of a step: the Alert Unit requests the next owed group, if it has no mirror write in hand
(R171, R173). -/
def State.requestMirror (s : State) : State := { s with alerts := s.alerts.request s.setup.part }

end Sys2Proof.Machine
end

