-- ==== Sys2Proof/Machine/Ops.lean ====
section
/-! DEFINITION. Operations that several families share: when a step can arise, acceptance at the upstream port,
the hold request's drop, and the outcome of a step. -/

namespace Sys2Proof.Machine

/-- The outcome of one command. -/
abbrev Result := Host.Outcome State Fault Refusal

/-- The shape of every step: where the step can arise, it has its effect, and the Alert Unit then requests the
next owed group; where it cannot, the state stands as it is (log entry 3). -/
def stepWhen (can : Bool) (effect : State → State) (s : State) : Result :=
  .next (if can then (effect s).requestMirror else s)

/-! ### When a step can arise -/

/-- RESET is not asserted, and every unit has acted on the last write notice (R3, R187; log entry 8). -/
def State.steady (s : State) : Bool := !s.inReset && s.pass.notice.isNone

/-- The group boundary of head `h` has been reached and its close is still to be taken (R84). -/
def LineUnit.boundaryReached (u : LineUnit) (h : Fin 16) : Bool :=
  match u.bounds[h] with
  | some b => decide (b.bin ≤ u.clock.toNat)
  | none => false

/-- The lowest-numbered head whose boundary has been reached (R90: in increasing head number). -/
def LineUnit.dueHead (u : LineUnit) : Option (Fin 16) := allLines.find? u.boundaryReached

/-- No snapshot waits for a place that the writer queue has: a close with room in the queue hands over all its
records at once (R98; log entry 12). -/
def State.handOversTaken (s : State) : Bool :=
  s.lines.handOver.isEmpty || decide (16 ≤ s.writer.queue.length)

/-- No group close of the last advance is still to be taken, nor any hand-over that the writer queue has room for:
an aligned close is made at its own clock time and its records are handed over, before the clock moves again and
before any other close of the group (R84, R90, R98; log entry 12). -/
def State.closesTaken (s : State) : Bool := s.lines.dueHead.isNone && s.handOversTaken

/-- Some timer that counts seconds has reached zero and its expiry is still to be taken (R65, R87, R179). -/
def State.expiryDue (s : State) : Bool :=
  s.lines.lines.toList.any (fun l => l.timer == some 0) ||
  s.channels.meters.toList.any (fun m => m.timer == some 0) || s.alerts.reportTimer == some 0

/-! ### Upstream port -/

/-- The port can take in the next transaction: the slot is empty, no burst waits, and the Alert Unit has acted
on the last read observation (R1, R4). -/
def Pass.open (p : Pass) : Bool :=
  p.slot.isNone && p.heldWrite.isNone && p.heldRead.isNone && p.observation.isNone

/-- The last word of a burst lies past FFFFFFFCh (R2). -/
def malformed (address length : Nat) : Bool := decide (2 ^ 32 < address + 4 * length)

/-- A word address lies in the guard region list (R11). Under no active setup the list is empty. -/
def State.guarded (s : State) (a : Nat) : Bool :=
  match s.setup.part, s.setup.active with
  | .fetching, _ => false
  | .unset, _ => false
  | _, none => false
  | _, some m =>
    (decide (s.setup.statusAddress ≤ a) && decide (a < s.setup.statusAddress + 256)) ||
    allLines.any (fun n => m.ringInForce n &&
      ((decide (m.ringBase n ≤ a) && decide (a < m.ringBase n + 4)) ||
       (decide (m.ringBase n + 64 ≤ a) && decide (a < m.ringBase n + 64 + 64 * m.ringSize n))))

/-- A write burst touches a guarded region when any of its words lies in one, whatever its enables (R11). -/
def State.touchesGuard (s : State) (address length : Nat) : Bool :=
  (List.range length).any (fun k => s.guarded (address + 4 * k))

/-- A write burst is accepted: the guard latches GUARD and, under REFUSE, answers it with ERROR and leaves the
slot empty; otherwise it takes the slot and requests the downstream port (R1, R12). -/
def State.acceptWrite (address : Nat) (words : List WriteWord) (s : State) : State :=
  if s.touchesGuard address words.length then
    if s.cfg.refuses then
      { s with pass := { s.pass with lastAnswer := some .error }, alerts := s.alerts.latch .guard }
    else
      { s with pass := { s.pass with slot := some (.write address words) }, alerts := s.alerts.latch .guard }
  else { s with pass := { s.pass with slot := some (.write address words) } }

/-- The Pass Controller leaves the hold state: the timer is stopped and cleared and HOLDING falls (R7, R8). -/
def State.leaveHold (s : State) : State :=
  { s with pass := { s.pass with heldWrite := none, holdTimer := none, releaseDue := false },
           alerts := s.alerts.fall s.cfg .holding }

/-! ### The hold request -/

/-- The hold request drops: spill ends (R9), or a waiting burst is to be accepted (R7). -/
def State.dropRequest (s : State) : State :=
  if s.intake.holdRequest then
    if s.pass.spilling then
      { s with intake := { s.intake with holdRequest := false },
               pass := { s.pass with spilling := false },
               alerts := s.alerts.fall s.cfg .spilling }
    else
      { s with intake := { s.intake with holdRequest := false },
               pass := { s.pass with releaseDue := s.pass.releaseDue || s.pass.heldWrite.isSome } }
  else s

/-! ### Channel table -/

/-- A new channel table: ANY_STALE follows it, with its edge (R69, R168). -/
def State.withMeters (ms : Vector Meter 256) (s : State) : State :=
  { s with channels := { s.channels with meters := ms },
           alerts := s.alerts.follow s.cfg .anyStale s.channels.anyStale
             { s.channels with meters := ms : Channels }.anyStale }

/-- A running timer lowered by one; at zero it stays, waiting for its expiry to be taken. -/
def lowered : Option Nat → Option Nat
  | some t => some (t - 1)
  | none => none

end Sys2Proof.Machine
end

