-- ==== Sys2Proof/Machine/TallyEngine.lean ====
section
/-! DEFINITION. The Tally Engine (chapter 7): posting, the update cycle, losses, errors, the miss list and the
lost-tally totals. -/

namespace Sys2Proof.Machine

/-! ### Lost-tally totals and posting -/

/-- An update turned away adds to the lost-tally totals and sets the last reason (R138). -/
def Lost.add (reason : LostReason) (u : Update) (l : Lost) : Lost :=
  { energy := satAdd (top 64) l.energy u.energy, pulled := satAdd (top 32) l.pulled u.pulled,
    packed := satAdd (top 32) l.packed u.packed, count := satAdd (top 32) l.count 1, reason := reason }

/-- The engine with the Alert Unit that it reports to. -/
structure Ledger where
  tally  : Tally
  alerts : Alerts
  deriving DecidableEq, Repr

/-- An update is turned away: its amounts go to the lost-tally totals, whose group is owed at each change, and
TALLY_MISS is latched (R126, R136, R138, R170). -/
def Ledger.turnAway (reason : LostReason) (u : Update) (x : Ledger) : Ledger :=
  let lost := x.tally.lost.add reason u
  let owed := { x.alerts.owed with lostTally := x.alerts.owed.lostTally || decide (lost ≠ x.tally.lost) }
  { tally := { x.tally with lost := lost }, alerts := { x.alerts with owed := owed }.latch .tallyMiss }

/-- An update is posted: it joins the queue's tail, or a full queue of 32 turns it away (R126). -/
def Ledger.post (x : Ledger) (u : Update) : Ledger :=
  if x.tally.queue.length < 32 then { x with tally := { x.tally with queue := x.tally.queue ++ [u] } }
  else x.turnAway .queueFull u

/-- Several updates posted in order, one by one (R126). -/
def Ledger.postAll (us : List Update) (x : Ledger) : Ledger := us.foldl Ledger.post x

/-! ### The computed entry (R125, R184) -/

/-- A 64-bit quantity of two words, the less significant half first. -/
def joinWords (lo hi : Word) : Nat := lo.toNat + 2 ^ 32 * hi.toNat

/-- The two words of a 64-bit quantity. -/
def splitWords (n : Nat) : List Word := [BitVec.ofNat 32 n, BitVec.ofNat 32 (n / 2 ^ 32)]

/-- The locked flag: bit 24 of word 0 alone (R184). -/
def entryLocked (d : Vector Word 8) : Bool := (d[0]).getLsbD 24

/-- Which fields saturate when the update is added: energy, pulled, packed, changeover, count (R125). -/
def entryOverflows (d : Vector Word 8) (u : Update) : List Bool :=
  [satOver (top 64) (joinWords d[1] d[2]) u.energy, satOver (top 32) d[3].toNat u.pulled,
   satOver (top 32) d[4].toNat u.packed, satOver (top 32) d[5].toNat u.changeover,
   satOver (top 32) d[6].toNat u.count]

/-- Word 0 of the computed entry: locked flag clear, each sticky flag set if it was set or its field saturates,
the update count raised by one and saturating, every other bit as read (R125, R184). -/
def entryWord0 (w : Word) (full : List Bool) : Word :=
  let sticky := (List.range 5).foldl (fun (acc : Word) k =>
    if full.getD k false then acc ||| BitVec.twoPow 32 (16 + k) else acc) 0
  let count := satAdd (top 16) (bits w 15 0) 1
  (w &&& 0xFEFF0000#32) ||| sticky ||| BitVec.ofNat 32 count

/-- The eight words of the computed entry (R125). -/
def computedEntry (d : Vector Word 8) (u : Update) : List Word :=
  [entryWord0 d[0] (entryOverflows d u)] ++
  splitWords (satAdd (top 64) (joinWords d[1] d[2]) u.energy) ++
  [BitVec.ofNat 32 (satAdd (top 32) d[3].toNat u.pulled),
   BitVec.ofNat 32 (satAdd (top 32) d[4].toNat u.packed),
   BitVec.ofNat 32 (satAdd (top 32) d[5].toNat u.changeover),
   BitVec.ofNat 32 (satAdd (top 32) d[6].toNat u.count),
   BitVec.ofNat 32 u.time]

/-! ### The miss list (R136) -/

/-- The entry made of an update sent to the miss list. A sum that the entry's field cannot hold saturates. -/
def Miss.make (reason : MissReason) (locked : Bool) (u : Update) : Miss :=
  { entry := u.entry, line := u.line, contention := reason == .contention,
    readFault := reason == .readFault, writeFault := reason == .writeFault, locked := locked, count := 1,
    energy := satAdd (top 64) 0 u.energy, pulled := satAdd (top 32) 0 u.pulled,
    packed := satAdd (top 32) 0 u.packed, changeover := satAdd (top 32) 0 u.changeover,
    counted := satAdd (top 32) 0 u.count,
    saturated := satOver (top 64) 0 u.energy || satOver (top 32) 0 u.pulled ||
      satOver (top 32) 0 u.packed || satOver (top 32) 0 u.changeover || satOver (top 32) 0 u.count,
    time := u.time }

/-- An update merged into a held entry of the same index; posting line and place are kept (R136). -/
def Miss.merge (reason : MissReason) (locked : Bool) (u : Update) (m : Miss) : Miss :=
  { m with
    contention := m.contention || reason == .contention, readFault := m.readFault || reason == .readFault,
    writeFault := m.writeFault || reason == .writeFault, locked := m.locked || locked,
    count := satAdd (top 8) m.count 1, energy := satAdd (top 64) m.energy u.energy,
    pulled := satAdd (top 32) m.pulled u.pulled, packed := satAdd (top 32) m.packed u.packed,
    changeover := satAdd (top 32) m.changeover u.changeover,
    counted := satAdd (top 32) m.counted u.count,
    saturated := m.saturated || satOver (top 64) m.energy u.energy ||
      satOver (top 32) m.pulled u.pulled || satOver (top 32) m.packed u.packed ||
      satOver (top 32) m.changeover u.changeover || satOver (top 32) m.counted u.count,
    time := u.time }

/-- An update is placed in the miss list: merged into the entry of its index, added at the end of the join
order, or turned away when the list holds 16. TALLY_MISS is latched in each case (R136). -/
def Ledger.miss (reason : MissReason) (locked : Bool) (u : Update) (x : Ledger) : Ledger :=
  if x.tally.misses.any (fun m => m.entry == u.entry) then
    { tally := { x.tally with misses := x.tally.misses.map (fun m =>
        if m.entry = u.entry then m.merge reason locked u else m) },
      alerts := x.alerts.latch .tallyMiss }
  else if x.tally.misses.length < 16 then
    { tally := { x.tally with misses := x.tally.misses ++ [Miss.make reason locked u] },
      alerts := x.alerts.latch .tallyMiss }
  else x.turnAway .listFull u

/-! ### The end of an update's service -/

/-- The engine has finished with the update in hand: its place in the queue frees and the engine is IDLE, with
no reservation (R131, R132, R134). That its loss count, locked flag and computed entry go here is deduced (log entry
25). -/
def Tally.finish (t : Tally) : Tally :=
  { t with queue := t.queue.tail, state := .idle, losses := 0, lockedLoss := false, computed := none,
           reservation := none, backoff := none }

/-- The update in hand leaves the queue for the miss list (R132, R134). -/
def Ledger.sendToMissList (reason : MissReason) (locked : Bool) (x : Ledger) : Ledger :=
  match x.tally.queue with
  | [] => { x with tally := x.tally.finish }
  | u :: _ => { x with tally := x.tally.finish }.miss reason locked u

/-- The backoff drawn after loss `n`: the generator's next number reduced to the range 0 to 2^min(n,5) − 1
(R132; a free value, log entry 1). -/
def backoffDraw (draws n : Nat) : Nat := Config.generatorValue draws % 2 ^ min n 5

/-- A loss: the conditional write is withdrawn and the reservation ends, the loss count rises, one TALLY_LOSS is
reported; the eighth loss sends the update to the miss list, an earlier one draws a backoff (R131, R132). That the
computed entry is dropped at every loss is deduced (log entry 25). -/
def Ledger.loss (m : Image) (locked : Bool) (x : Ledger) : Ledger :=
  let n := x.tally.losses + 1
  let flag := x.tally.lockedLoss || locked
  let alerts := x.alerts.report m .tallyLoss
  if 8 ≤ n then { x with alerts := alerts }.sendToMissList .contention flag
  else
    { tally := { x.tally with losses := n, lockedLoss := flag, computed := none, reservation := none,
                              state := .backoff, backoff := some (backoffDraw x.tally.draws n),
                              draws := x.tally.draws + 1 },
      alerts := alerts }

/-- An ERROR of the cycle: the update goes to the miss list with no retry, and MEMORY_FAULT is latched (R134). -/
def Ledger.fail (reason : MissReason) (x : Ledger) : Ledger :=
  { x with alerts := x.alerts.latch .memoryFault }.sendToMissList reason false

/-! ### In the state -/

/-- The engine with the alerts of the state. -/
def State.ledger (s : State) : Ledger := { tally := s.tally, alerts := s.alerts }

/-- A change of the engine and the alerts put back into the state. -/
def State.withLedger (s : State) (x : Ledger) : State := { s with tally := x.tally, alerts := x.alerts }

/-- The byte address of an entry (R123). -/
def Image.entryAddress (m : Image) (entry : Nat) : Nat := m.tallyBase + 32 * entry

/-- The apply under way changes the tally base (R127, R157). -/
def State.baseChanges (s : State) : Bool :=
  match s.setup.candidate, s.setup.active with
  | some c, some a => c.tallyBase != a.tallyBase
  | _, _ => false

/-- Between the quiesce met and the installation of an apply that changes the tally base, the engine takes no
update into hand (R127). -/
def State.postingHeld (s : State) : Bool := s.setup.part == .applying .drain && s.baseChanges

/-- UPDATE_INTO_HAND (R127): the idle engine takes the head update into hand. -/
def execUpdateIntoHand (s : State) : Result :=
  stepWhen (s.steady && s.tally.state == .idle && !s.tally.queue.isEmpty && !s.postingHeld)
    (fun s => { s with tally := { s.tally with losses := 0, lockedLoss := false, state := .readWait } }) s

/-- The answer to a reserve-read (R125, R129, R134): a locked entry is a loss; an unlocked one gives the computed entry
and a conditional write; an ERROR sends the update to the miss list. The port is free again. A computed entry of a
retry that saturates latches SATURATION again (DESIGN CHOICE, log entry 34). -/
def State.takeReserveRead (answer : ReadAnswer 8) (s : State) : State :=
  let s := { s with pass := { s.pass with port := .free } }
  match answer with
  | .error => s.withLedger (s.ledger.fail .readFault)
  | .ok d =>
    if entryLocked d then s.withLedger (s.ledger.loss s.cfg true)
    else match s.tally.queue with
      | [] => s
      | u :: _ =>
        { s with tally := { s.tally with computed := some (computedEntry d u), state := .writeWait },
                 alerts := s.alerts.latchIf ((entryOverflows d u).any id) .saturation }

/-- The downstream port carries the reserve-read (R128). -/
def Port.isReserveRead : Port → Bool
  | .internal .reserveRead _ => true
  | _ => false

/-- The downstream port carries the conditional write (R131). -/
def Port.isConditionalWrite : Port → Bool
  | .internal .conditionalWrite _ => true
  | _ => false

/-- RESERVE_READ_RESPONSE (R129, R134). -/
def execReserveReadResponse (answer : ReadAnswer 8) (s : State) : Result :=
  stepWhen (s.steady && s.pass.port.isReserveRead) (State.takeReserveRead answer) s

/-- The answer to a conditional write: OK ends the update; an ERROR sends it to the miss list (R131, R134). -/
def State.takeConditionalWrite (answer : Answer) (s : State) : State :=
  let s := { s with pass := { s.pass with port := .free } }
  match answer with
  | .ok => { s with tally := s.tally.finish }
  | .error => s.withLedger (s.ledger.fail .writeFault)

/-- CONDITIONAL_WRITE_RESPONSE (R131, R134). -/
def execConditionalWriteResponse (answer : Answer) (s : State) : Result :=
  stepWhen (s.steady && s.pass.port.isConditionalWrite) (State.takeConditionalWrite answer) s

/-- BACKOFF_EXPIRY (R133): the backoff timer has reached zero, and a new reserve-read of the same entry is
requested with the loss count as it stands. -/
def execBackoffExpiry (s : State) : Result :=
  stepWhen (s.steady && s.tally.state == .backoff && s.tally.backoff == some 0)
    (fun s => { s with tally := { s.tally with state := .readWait, backoff := none } }) s

end Sys2Proof.Machine
end

