-- ==== Sys2Proof/Machine/Lines.lean ====
section
/-! DEFINITION. The Line Unit (chapter 5): credits, line events, job close, group close with apportionment,
epochs, snapshots and merges, the plant clock. -/

namespace Sys2Proof.Machine

/-! ### Credits (R73, R88) -/

/-- What a credit adds to (R73). -/
inductive Quantity where
  | thermal | electric | auxiliary | pulled | packed | unweighed
  deriving DecidableEq, Repr

/-- A credit (R73). -/
structure Credit where
  quantity  : Quantity
  amount    : Nat
  estimated : Bool
  carriedIn : Bool
  deriving DecidableEq, Repr

/-- The amount where the condition holds, else 0. -/
def amountIf (c : Bool) (n : Nat) : Nat := if c then n else 0

/-- The credit is energy of one of the three classes. -/
def Quantity.isEnergy : Quantity → Bool
  | .thermal | .electric | .auxiliary => true
  | .pulled | .packed | .unweighed => false

/-- A credit added to the open bin: the bin, and whether an addition saturated (R88). -/
def Bin.credit (c : Credit) (inChangeover : Bool) (b : Bin) : Bin × Bool :=
  let add (q : Quantity) : Nat := amountIf (c.quantity == q) c.amount
  let energy := amountIf c.quantity.isEnergy c.amount
  let carried := amountIf c.carriedIn energy
  let estimated := amountIf c.estimated energy
  let changeover := amountIf inChangeover energy
  let sat := satOver (top 32) b.thermal (add .thermal) || satOver (top 32) b.electric (add .electric) ||
    satOver (top 32) b.auxiliary (add .auxiliary) || satOver (top 32) b.carriedIn carried ||
    satOver (top 32) b.estimated estimated || satOver (top 32) b.changeover changeover ||
    satOver (top 32) b.pulledGrams (add .pulled) || satOver (top 32) b.packedGrams (add .packed) ||
    satOver (top 16) b.unweighed (add .unweighed)
  ({ b with
     thermal := satAdd (top 32) b.thermal (add .thermal),
     electric := satAdd (top 32) b.electric (add .electric),
     auxiliary := satAdd (top 32) b.auxiliary (add .auxiliary),
     carriedIn := satAdd (top 32) b.carriedIn carried,
     estimated := satAdd (top 32) b.estimated estimated,
     changeover := satAdd (top 32) b.changeover changeover,
     pulledGrams := satAdd (top 32) b.pulledGrams (add .pulled),
     packedGrams := satAdd (top 32) b.packedGrams (add .packed),
     unweighed := satAdd (top 16) b.unweighed (add .unweighed),
     flags := { b.flags with saturated := b.flags.saturated || sat } }, sat)

/-- A credit added to the job accumulator of a FORMING line; unweighed counts are not added (R100). -/
def Job.credit (c : Credit) (inChangeover : Bool) (j : Job) : Job × Bool :=
  let energy := amountIf c.quantity.isEnergy c.amount
  let changeover := amountIf inChangeover energy
  let pulled := amountIf (c.quantity == .pulled) c.amount
  let packed := amountIf (c.quantity == .packed) c.amount
  let sat := satOver (top 64) j.energy energy || satOver (top 32) j.changeover changeover ||
    satOver (top 64) j.pulledGrams pulled || satOver (top 64) j.packedGrams packed
  ({ j with energy := satAdd (top 64) j.energy energy,
            changeover := satAdd (top 32) j.changeover changeover,
            pulledGrams := satAdd (top 64) j.pulledGrams pulled,
            packedGrams := satAdd (top 64) j.packedGrams packed,
            saturated := j.saturated || sat }, sat)

/-- A credit that reaches a line; an IDLE line takes none. The flag says whether an addition saturated (R88). -/
def Line.credit (kind : LineKind) (c : Credit) (l : Line) : Line × Bool :=
  if l.state = .idle then (l, false)
  else
    let inChangeover := l.state == .changeover
    let (bin, satBin) := l.bin.credit c inChangeover
    let l := { l with bin := bin, summarySaturation := l.summarySaturation || satBin }
    if kind = .forming then
      let (job, satJob) := l.job.credit c inChangeover
      ({ l with job := job }, satBin || satJob)
    else (l, satBin)

/-- A reprime notice raises the open bin's unaccounted-reprime count, saturating at 255 (R89; that a saturating
count sets the flags like any other addition to a bin is DEDUCED, log entry 13). -/
def Line.reprimeNotice (l : Line) : Line × Bool :=
  let sat := satOver (top 8) l.bin.reprimes 1
  ({ l with bin := { l.bin with reprimes := satAdd (top 8) l.bin.reprimes 1,
                                flags := { l.bin.flags with saturated := l.bin.flags.saturated || sat } },
            summarySaturation := l.summarySaturation || sat }, sat)

/-! ### Sums, merges (R94, R97) -/

/-- Sums added field by field, saturating (R94, R97). -/
def Sums.add (a b : Sums) : Sums :=
  { thermal := satAdd (top 32) a.thermal b.thermal, electric := satAdd (top 32) a.electric b.electric,
    auxiliary := satAdd (top 32) a.auxiliary b.auxiliary, share := satAdd (top 32) a.share b.share,
    carriedIn := satAdd (top 32) a.carriedIn b.carriedIn,
    estimated := satAdd (top 32) a.estimated b.estimated,
    changeover := satAdd (top 32) a.changeover b.changeover,
    pulledKg := satAdd (top 32) a.pulledKg b.pulledKg, packedKg := satAdd (top 32) a.packedKg b.packedKg,
    unweighed := satAdd (top 16) a.unweighed b.unweighed,
    stoppedSeconds := satAdd (top 32) a.stoppedSeconds b.stoppedSeconds,
    reprimes := satAdd (top 8) a.reprimes b.reprimes }

/-- Some field saturates when the sums are added. -/
def Sums.overflows (a b : Sums) : Bool :=
  satOver (top 32) a.thermal b.thermal || satOver (top 32) a.electric b.electric ||
  satOver (top 32) a.auxiliary b.auxiliary || satOver (top 32) a.share b.share ||
  satOver (top 32) a.carriedIn b.carriedIn || satOver (top 32) a.estimated b.estimated ||
  satOver (top 32) a.changeover b.changeover || satOver (top 32) a.pulledKg b.pulledKg ||
  satOver (top 32) a.packedKg b.packedKg || satOver (top 16) a.unweighed b.unweighed ||
  satOver (top 32) a.stoppedSeconds b.stoppedSeconds || satOver (top 8) a.reprimes b.reprimes

/-- The energy of the three classes. -/
def Sums.energy (x : Sums) : Nat := x.thermal + x.electric + x.auxiliary

/-- Flags combined by OR, with a saturation of the merge itself. -/
def BinFlags.or (a b : BinFlags) (sat : Bool) : BinFlags :=
  { saturated := a.saturated || b.saturated || sat, stopped := a.stopped || b.stopped,
    changeover := a.changeover || b.changeover }

/-- A newer closed bin merged into a waiting snapshot (R97): start time, kind and job code of the waiting one
kept, sums added, flags combined, the larger stale count, lengths added, the merged count raised. The job code
at close of the waiting snapshot is kept (DEDUCED, log entry 14). -/
def BinSnapshot.merge (old new : BinSnapshot) : BinSnapshot :=
  { old with covered := old.covered + new.covered, sums := old.sums.add new.sums,
             stale := max old.stale new.stale,
             flags := old.flags.or new.flags (old.sums.overflows new.sums),
             merged := satAdd (top 8) old.merged 1 }

/-- A newer closed epoch merged into a waiting snapshot (R97). -/
def EpochSnapshot.merge (old new : EpochSnapshot) : EpochSnapshot :=
  { old with
    epoch := { old.epoch with
      covered := old.epoch.covered + new.epoch.covered, bins := old.epoch.bins + new.epoch.bins,
      sums := old.epoch.sums.add new.epoch.sums, stale := max old.epoch.stale new.epoch.stale,
      flags := old.epoch.flags.or new.epoch.flags (old.epoch.sums.overflows new.epoch.sums) },
    merged := satAdd (top 8) old.merged 1 }

/-- Some sum of two job snapshots saturates when they are merged. The merged masses saturate at the 64-bit
maximum of their gram totals (DEDUCED, log entry 10). -/
def JobSnapshot.overflows (old new : JobSnapshot) : Bool :=
  satOver (top 64) old.energy new.energy || satOver (top 64) old.share new.share ||
  satOver (top 32) old.changeover new.changeover ||
  satOver (top 32) old.changeoverSeconds new.changeoverSeconds ||
  satOver (top 64) old.pulledKg new.pulledKg || satOver (top 64) old.packedKg new.packedKg

/-- A newer closed job merged into a waiting snapshot: job code and start time of the first, end time of the
newest (R97). -/
def JobSnapshot.merge (old new : JobSnapshot) : JobSnapshot :=
  { code := old.code, start := old.start, finish := new.finish,
    energy := satAdd (top 64) old.energy new.energy, share := satAdd (top 64) old.share new.share,
    changeover := satAdd (top 32) old.changeover new.changeover,
    changeoverSeconds := satAdd (top 32) old.changeoverSeconds new.changeoverSeconds,
    pulledKg := satAdd (top 64) old.pulledKg new.pulledKg,
    packedKg := satAdd (top 64) old.packedKg new.packedKg,
    saturated := old.saturated || new.saturated || old.overflows new,
    merged := satAdd (top 8) old.merged 1 }

/-! ### Group boundaries (R84) -/

/-- The smallest multiple of `n` greater than `t`. -/
def nextMultiple (n t : Nat) : Nat := (t / n + 1) * n

/-- The next bin boundary and the next epoch boundary of head `h` from the clock (R84). -/
def Image.boundAt (m : Image) (h : Fin 16) (now : Nat) : Bound :=
  { bin := nextMultiple (m.binLength h) now, epoch := nextMultiple (m.binLength h * m.epochLength h) now }

/-- Every head's boundaries computed afresh from the clock (R83, R84). -/
def LineUnit.renewBounds (m : Image) (u : LineUnit) : LineUnit :=
  { u with bounds := tabulate 16 (fun h =>
      if m.isHead h then some (m.boundAt h u.clock.toNat) else none) }

/-! ### The Line Unit with the units it reports to -/

/-- The Line Unit, with the channel table whose flags it reads and renews, the Tally Engine it posts to and the
Alert Unit it reports to. -/
structure Books where
  channels : Channels
  lines    : LineUnit
  ledger   : Ledger
  deriving DecidableEq, Repr

/-- The line `n` of the books. -/
def Books.line (x : Books) (n : Fin 16) : Line := x.lines.lines[n]

/-- The line `n` replaced. -/
def Books.setLine (n : Fin 16) (l : Line) (x : Books) : Books :=
  { x with lines := { x.lines with lines := x.lines.lines.set n l } }

/-- SATURATION latched where an addition saturated (R165). -/
def Books.saturate (sat : Bool) (x : Books) : Books :=
  { x with ledger := { x.ledger with alerts := x.ledger.alerts.latchIf sat .saturation } }

/-- A credit delivered to its line (R88). -/
def Books.credit (m : Image) (n : Fin 16) (c : Credit) (x : Books) : Books :=
  let r := (x.line n).credit (m.kind n) c
  (x.setLine n r.1).saturate r.2

/-- A reprime notice delivered to its line (R64, R89). -/
def Books.reprimeNotice (n : Fin 16) (x : Books) : Books :=
  let r := (x.line n).reprimeNotice
  (x.setLine n r.1).saturate r.2

/-! ### Job close (R101) -/

/-- The snapshot of a job accumulator at the close time (R101, steps 1 and 2). -/
def Job.snapshot (j : Job) (now : Nat) : JobSnapshot :=
  { code := j.code, start := j.start, finish := now, energy := j.energy, share := j.share,
    changeover := j.changeover, changeoverSeconds := j.changeoverSeconds,
    pulledKg := j.pulledGrams / 1000, packedKg := j.packedGrams / 1000, saturated := j.saturated,
    merged := 0 }

/-- The tally update of a job close (R101, step 3). -/
def Job.update (j : Job) (n : Fin 16) (now : Nat) : Update :=
  { entry := j.code, line := n, energy := j.energy, pulled := j.pulledGrams / 1000,
    packed := j.packedGrams / 1000, changeover := j.changeover, count := 1, time := now }

/-- The accumulator opened again: the gram remainders stay, the code is the one adopted (R101, step 4). -/
def Job.reopened (j : Job) (code now : Nat) : Job :=
  { code := code, start := now, energy := 0, share := 0, changeover := 0, changeoverSeconds := 0,
    pulledGrams := j.pulledGrams % 1000, packedGrams := j.packedGrams % 1000, saturated := false }

/-- A job close of line `n`, after which the accumulator runs under `code` (R101). -/
def Books.closeJob (n : Fin 16) (code : Nat) (x : Books) : Books :=
  let l := x.line n
  let now := x.lines.clock.toNat
  let fresh := l.job.snapshot now
  let snap := match l.jobSnap with
    | some waiting => waiting.merge fresh
    | none => fresh
  let sat := match l.jobSnap with
    | some waiting => waiting.overflows fresh
    | none => false
  let joined := if l.jobSnap.isSome then x.lines.handOver else x.lines.handOver ++ [(.job, n)]
  let lines := x.lines.lines.set n { l with job := l.job.reopened code now, jobSnap := some snap }
  let ledger := if l.job.code = 0 then x.ledger else x.ledger.post (l.job.update n now)
  { x with lines := { x.lines with lines := lines, handOver := joined }, ledger := ledger }.saturate sat

/-! ### Line events (R85, R86) -/

/-- A line enters CHANGEOVER with its timer at the duration, or RUNNING if the duration is 0 (R85, R87). -/
def Line.enterChangeover (duration : Nat) (l : Line) : Line :=
  if duration = 0 then { l with state := .running, timer := none }
  else { l with state := .changeover, timer := some duration,
                bin := { l.bin with flags := { l.bin.flags with changeover := true } } }

/-- A line enters STOPPED (R86). -/
def Line.enterStopped (l : Line) : Line :=
  { l with state := .stopped, timer := none,
           bin := { l.bin with flags := { l.bin.flags with stopped := true } } }

/-- The state change of a JOB_MARK, once the job is closed: code and weight adopted (R85). -/
def Line.jobMark (code weight duration : Nat) (l : Line) : Line :=
  let l := { l with jobCode := code, unitWeight := weight }
  match l.state with
  | .running => l.enterChangeover duration
  | .changeover => l.enterChangeover duration
  | .stopped => { l with changeoverPending := true }
  | .idle => l

/-- LINE_STOP (R85). -/
def Line.stop (l : Line) : Line :=
  match l.state with
  | .running => l.enterStopped
  | .changeover => { l.enterStopped with changeoverPending := true }
  | .stopped => l
  | .idle => l

/-- LINE_START (R85). -/
def Line.start (duration : Nat) (l : Line) : Line :=
  match l.state with
  | .stopped =>
    if l.changeoverPending then { l with changeoverPending := false }.enterChangeover duration
    else { l with state := .running }
  | .running => l
  | .changeover => l
  | .idle => l

/-- An event that a matcher delivers to its line (R50). -/
inductive LineEvent where
  | jobMark (code weight : Nat)
  | lineStop
  | lineStart
  deriving DecidableEq, Repr

/-- The line takes the event (R85). -/
def Books.event (m : Image) (n : Fin 16) (e : LineEvent) (x : Books) : Books :=
  match e with
  | .jobMark code weight =>
    let y := x.closeJob n code
    y.setLine n ((y.line n).jobMark code weight (m.changeoverDuration n))
  | .lineStop => x.setLine n (x.line n).stop
  | .lineStart => x.setLine n ((x.line n).start (m.changeoverDuration n))

/-! ### Group close (R90 to R96) -/

/-- Largest mass with the lowest line among equals: the child that takes the residue (R92). -/
def largestChild : List (Fin 16 × Nat) → Option (Fin 16 × Nat)
  | [] => none
  | c :: rest =>
    match largestChild rest with
    | none => some c
    | some d => if c.2 < d.2 then some d else some c

/-- The furnace's bin energy shared among its children by pulled kilograms: each child's share, and the
unapportioned energy (R92). -/
def apportion (energy : Nat) (children : List (Fin 16 × Nat)) : List (Fin 16 × Nat) × Nat :=
  let total := (children.map Prod.snd).sum
  if total = 0 then (children.map (fun c => (c.1, 0)), energy)
  else
    let floors := children.map (fun c => (c.1, energy * c.2 / total))
    let residue := energy - (floors.map Prod.snd).sum
    let best := (largestChild children).map Prod.fst
    (floors.map (fun c => (c.1, if best = some c.1 then c.2 + residue else c.2)), 0)

/-- The share of line `n` in a list of shares. -/
def shareOf (shares : List (Fin 16 × Nat)) (n : Fin 16) : Nat :=
  match shares.find? (fun c => c.1 == n) with
  | some c => c.2
  | none => 0

/-- The pulled kilograms that the closing bin reports (R91). -/
def Line.closingPulledKg (l : Line) : Nat := (l.pulledResidue + l.bin.pulledGrams) / 1000

/-- The packed kilograms that the closing bin reports (R91). -/
def Line.closingPackedKg (l : Line) : Nat := (l.packedResidue + l.bin.packedGrams) / 1000

/-- The three class sums of the open bin. -/
def Bin.energy (b : Bin) : Nat := b.thermal + b.electric + b.auxiliary

/-- The closed bin's whole contents (R91), with its share or unapportioned energy (R92). The snapshot's field
is 32 bits and saturates (R183); the exact share goes to the tally and the job (DEDUCED, log entry 15). -/
def Line.closedBin (kind : LineKind) (now stale share : Nat) (l : Line) : BinSnapshot :=
  { start := l.bin.start, covered := now - l.bin.start,
    sums := { thermal := l.bin.thermal, electric := l.bin.electric, auxiliary := l.bin.auxiliary,
              share := satAdd (top 32) 0 share, carriedIn := l.bin.carriedIn,
              estimated := l.bin.estimated, changeover := l.bin.changeover,
              pulledKg := l.closingPulledKg, packedKg := l.closingPackedKg,
              unweighed := l.bin.unweighed, stoppedSeconds := l.bin.stoppedSeconds,
              reprimes := l.bin.reprimes },
    stale := stale, jobCode := l.jobCode, kind := kind,
    flags := { l.bin.flags with saturated := l.bin.flags.saturated || satOver (top 32) 0 share },
    merged := 0 }

/-- The closed bin added to the epoch accumulator (R94). -/
def Epoch.addBin (e : Epoch) (b : BinSnapshot) : Epoch :=
  { e with covered := e.covered + b.covered, bins := e.bins + 1, sums := e.sums.add b.sums,
           stale := max e.stale b.stale, flags := e.flags.or b.flags (e.sums.overflows b.sums) }

/-- The furnace share added to the job accumulator's energy and share (R100). -/
def Job.addShare (share : Nat) (j : Job) : Job × Bool :=
  let sat := satOver (top 64) j.energy share || satOver (top 64) j.share share
  ({ j with energy := satAdd (top 64) j.energy share, share := satAdd (top 64) j.share share,
            saturated := j.saturated || sat }, sat)

/-- The tally update of a bin close (R95). -/
def Line.binUpdate (kind : LineKind) (n : Fin 16) (now share : Nat) (l : Line) : Update :=
  { entry := 1024 + n, line := n,
    energy := l.bin.energy + (if kind = .forming then share else 0),
    pulled := l.closingPulledKg, packed := l.closingPackedKg, changeover := l.bin.changeover,
    count := 1, time := now }

/-- The open bin started afresh: its flags follow the line's state (R96). -/
def Line.reopenBin (now : Nat) (l : Line) : Line :=
  { l with bin := .opened now { saturated := false, stopped := l.state == .stopped,
                                changeover := l.state == .changeover } }

/-- The closed bin put into the closing snapshot, or merged into the one that waits, with the saturation of the
merge (R91, R97). -/
def Line.placeBin (b : BinSnapshot) (l : Line) : Line × Bool :=
  match l.closing with
  | none => ({ l with closing := some b }, false)
  | some w => ({ l with closing := some (w.merge b) }, w.sums.overflows b.sums)

/-- The epoch accumulator snapshotted, or merged into the snapshot that waits, and cleared; the
summary-saturation flag is carried into the snapshot's flags and cleared (R94, R97). -/
def Line.closeEpoch (kind : LineKind) (now : Nat) (l : Line) : Line × Bool :=
  let fresh : EpochSnapshot :=
    { epoch := { l.epoch with
        flags := { l.epoch.flags with saturated := l.epoch.flags.saturated || l.summarySaturation } },
      kind := kind, merged := 0 }
  let l' := { l with epoch := .opened now, summarySaturation := false }
  match l.epochSnap with
  | none => ({ l' with epochSnap := some fresh }, false)
  | some w => ({ l' with epochSnap := some (w.merge fresh) }, w.epoch.sums.overflows fresh.epoch.sums)

/-- One member's part in a group close: steps 1, 3, 5 and 6 of R90. The flag says whether an addition
saturated. -/
def Line.close (kind : LineKind) (now stale share : Nat) (withEpoch : Bool) (l : Line) : Line × Bool :=
  let b := l.closedBin kind now stale share
  let satShare := satOver (top 32) 0 share
  let satEpoch := l.epoch.sums.overflows b.sums
  let placed := l.placeBin b
  let job := if kind = .forming then placed.1.job.addShare share else (placed.1.job, false)
  let l1 := { placed.1 with
    pulledResidue := (l.pulledResidue + l.bin.pulledGrams) % 1000,
    packedResidue := (l.packedResidue + l.bin.packedGrams) % 1000,
    epoch := l.epoch.addBin b, job := job.1,
    summarySaturation := l.summarySaturation || satShare || satEpoch }
  let l2 := if withEpoch then l1.closeEpoch kind now else (l1, false)
  (l2.1.reopenBin now, satShare || satEpoch || placed.2 || job.2 || l2.2)

/-- The stale channel count of line `n`: its entries whose stale-in-bin flags are set (R70, R91). -/
def Channels.staleCount (m : Image) (n : Fin 16) (c : Channels) : Nat :=
  (allEntries.filter (fun e => c.meters[e].staleInBin && m.channelEnabled e &&
    (m.channel e).line == n)).length

/-- The stale-in-bin flags of the members' channel entries renewed (R70, R96). -/
def Channels.renewStale (m : Image) (ms : List (Fin 16)) (c : Channels) : Channels :=
  { c with meters := tabulate 256 (fun e =>
      if m.channelEnabled e && ms.contains (m.channel e).line then
        { c.meters[e] with staleInBin := c.meters[e].state == .stale }
      else c.meters[e]) }

/-- The shares of the group that `h` heads in this close, and the furnace's unapportioned energy (R92). -/
def Books.apportionment (m : Image) (h : Fin 16) (x : Books) : List (Fin 16 × Nat) × Nat :=
  if m.kind h = .furnace then
    apportion (x.line h).bin.energy
      (((m.members h).filter (fun n => n != h)).map (fun n => (n, (x.line n).closingPulledKg)))
  else ([], 0)

/-- The share of a child, or the unapportioned energy of the head (R92). -/
def Books.shareIn (m : Image) (h : Fin 16) (x : Books) (n : Fin 16) : Nat :=
  let a := x.apportionment m h
  if n = h then a.2 else shareOf a.1 n

/-- What the members' closes come to: each member's new line and whether an addition saturated. -/
def Books.closedLine (m : Image) (h : Fin 16) (withEpoch : Bool) (x : Books) (n : Fin 16) : Line × Bool :=
  (x.line n).close (m.kind n) x.lines.clock.toNat (x.channels.staleCount m n) (x.shareIn m h n) withEpoch

/-- The snapshots that join the hand-over list at the end of a close: in increasing line number, each line's
closing snapshot and then its epoch snapshot; a merge joins nothing (R97, R98). -/
def Books.joining (ms : List (Fin 16)) (withEpoch : Bool) (x : Books) : List (SnapshotKind × Fin 16) :=
  ms.flatMap (fun n =>
    (if (x.line n).closing.isNone then [(.bin, n)] else []) ++
    (if withEpoch && (x.line n).epochSnap.isNone then [(.epoch, n)] else []))

/-- One group close, with its epoch or without (R90). -/
def Books.closeGroup (m : Image) (h : Fin 16) (withEpoch : Bool) (x : Books) : Books :=
  let group := m.members h
  let now := x.lines.clock.toNat
  let sat := group.any (fun n => (x.closedLine m h withEpoch n).2)
  let updates := group.map (fun n => (x.line n).binUpdate (m.kind n) n now (x.shareIn m h n))
  let closed : Books := {
    channels := x.channels.renewStale m group,
    lines := { x.lines with
      lines := tabulate 16 (fun n => if group.contains n then (x.closedLine m h withEpoch n).1 else x.line n),
      handOver := x.lines.handOver ++ x.joining group withEpoch,
      bounds := x.lines.bounds.set h (some (m.boundAt h now)) },
    ledger := x.ledger.postAll updates }
  closed.saturate sat

/-- Whether the epoch of head `h` closes with a boundary expiry or a forward step (R83, R84). -/
def LineUnit.epochReached (u : LineUnit) (h : Fin 16) : Bool :=
  match u.bounds[h] with
  | some b => decide (b.epoch ≤ u.clock.toNat)
  | none => false

/-! ### In the state -/

/-- The books of the state. -/
def State.books (s : State) : Books := { channels := s.channels, lines := s.lines, ledger := s.ledger }

/-- The books put back. No operation on the books changes a channel's standing, so ANY_STALE stands. -/
def State.withBooks (s : State) (x : Books) : State :=
  { s with channels := x.channels, lines := x.lines, tally := x.ledger.tally, alerts := x.ledger.alerts }

/-- A TICK pulse (R27, R82): the pulse count rises; at 1000 it becomes 0 and an advance of the clock is due.
Every running assembly timer is lowered by one. While RESET is asserted no pulse is counted (R187). -/
def State.tick (s : State) : State :=
  let full := decide (999 ≤ s.lines.pulses)
  { s with
    lines := { s.lines with pulses := if full then 0 else s.lines.pulses + 1,
                            advancesDue := if full then s.lines.advancesDue + 1 else s.lines.advancesDue },
    intake := { s.intake with windows := tabulate 4 (fun i =>
      { s.intake.windows[i] with timer := lowered s.intake.windows[i].timer }) } }

/-- TICK_PULSE (R27, R82). -/
def execTickPulse (s : State) : Result := stepWhen (!s.inReset) State.tick s

/-- One second of a line, by its state at the start of the advance (R82). -/
def Line.second (l : Line) : Line × Bool :=
  match l.state with
  | .changeover =>
    let sat := satOver (top 32) l.job.changeoverSeconds 1
    ({ l with timer := lowered l.timer,
              job := { l.job with changeoverSeconds := satAdd (top 32) l.job.changeoverSeconds 1,
                                  saturated := l.job.saturated || sat } }, sat)
  | .stopped =>
    let sat := satOver (top 32) l.bin.stoppedSeconds 1
    ({ l with bin := { l.bin with stoppedSeconds := satAdd (top 32) l.bin.stoppedSeconds 1,
                                  flags := { l.bin.flags with saturated := l.bin.flags.saturated || sat } },
              summarySaturation := l.summarySaturation || sat }, sat)
  | .running => (l, false)
  | .idle => (l, false)

/-- CLOCK_ADVANCE (R65, R82, R179): the clock advances by one; the lines' seconds are added; changeover, stale
and report timers are lowered. A wrap to 0 is a backward step: boundaries are computed afresh (R82, R83). -/
def State.advance (s : State) : State :=
  let clock := s.lines.clock + 1
  let sat := s.lines.lines.toList.any (fun l => l.second.2)
  let lines := { s.lines with
    clock := clock, advancesDue := s.lines.advancesDue - 1,
    lines := tabulate 16 (fun n => s.lines.lines[n].second.1) }
  { s with
    lines := if clock = 0 then lines.renewBounds s.cfg else lines,
    channels := { s.channels with meters := tabulate 256 (fun e =>
      { s.channels.meters[e] with timer := lowered s.channels.meters[e].timer }) },
    alerts := { s.alerts with reportTimer := lowered s.alerts.reportTimer }.latchIf sat .saturation }

/-- An advance is taken once every expiry of the advance before it has been taken (log entry 12). -/
def execClockAdvance (s : State) : Result :=
  stepWhen (s.steady && decide (0 < s.lines.advancesDue) && s.closesTaken && !s.expiryDue) State.advance s

/-- CHANGEOVER_TIMER_EXPIRY (R85, R87): the line goes to RUNNING. -/
def execChangeoverTimerExpiry (line : Fin 16) (s : State) : Result :=
  stepWhen (s.steady && s.lines.lines[line].state == .changeover && s.lines.lines[line].timer == some 0)
    (fun s => { s with lines := { s.lines with
      lines := s.lines.lines.set line { s.lines.lines[line] with state := .running, timer := none } } }) s

/-- The close of the lowest-numbered head whose boundary has been reached (R84, R90). -/
def State.closeDue (s : State) : State :=
  match s.lines.dueHead with
  | some h => s.withBooks (s.books.closeGroup s.cfg h (s.lines.epochReached h))
  | none => s

/-- BIN_BOUNDARY_EXPIRY (R84, R90). It is part of its advance, so a write notice in delivery does not hold it
back (log entry 8). -/
def execBinBoundaryExpiry (s : State) : Result :=
  stepWhen (!s.inReset && s.lines.dueHead.isSome) State.closeDue s

/-! ### Clock word (R83) -/

/-- A forward step's closes: each head, in increasing number, whose next bin boundary the new clock has
reached; with its epoch where that boundary is reached too (R83, R90). -/
def Books.forwardCloses (m : Image) (x : Books) : Books :=
  allLines.foldl (fun x h =>
    if x.lines.boundaryReached h then x.closeGroup m h (x.lines.epochReached h) else x) x

/-- The clock takes a new value: CLOCK_STEP is latched, a forward step closes groups, and every boundary is
computed afresh (R83). -/
def State.stepClock (new : Word) (s : State) : State :=
  if new = s.lines.clock then s
  else
    let x := { s.books with lines := { s.lines with clock := new } }
    let x := if s.lines.clock.toNat < new.toNat then x.forwardCloses s.cfg else x
    (s.withBooks { x with lines := x.lines.renewBounds s.cfg }).latch .clockStep

end Sys2Proof.Machine
end

