-- ==== Sys2Proof/Machine/Meters.lean ====
section
/-! DEFINITION. The Channel Unit (chapter 4): screening, the meter state machine, conversion and credits, stale
expiry. -/

namespace Sys2Proof.Machine

/-! ### Screening (R56 to R59) -/

/-- The quality of a record (R56). -/
inductive Quality where
  | good | estimated | fault | test
  deriving DecidableEq, Repr

/-- The low byte of the first tag word; no tag is GOOD, and a code of 4 to 255 is taken as FAULT (R56). -/
def TapRecord.quality (r : TapRecord) : Quality :=
  match r.tags with
  | [] => .good
  | t :: _ =>
    match bits t 7 0 with
    | 0 => .good
    | 1 => .estimated
    | 3 => .test
    | _ => .fault

/-- The modulus of an entry's meter (section 4.1). -/
def ChannelSetup.modulus (c : ChannelSetup) : Nat := 2 ^ c.width

/-- The forward distance from `a` to `v` on the meter's dial (section 4.3). -/
def ChannelSetup.forward (c : ChannelSetup) (a v : Nat) : Nat := (v + c.modulus - a % c.modulus) % c.modulus

/-- What the handling of a record comes to: the meter state afterwards, the defects reported, whether the
channel was reprimed, and the counts to credit with the carried-in mark. -/
structure Handling where
  meter    : Meter
  defects  : List DefectClass
  reprimed : Bool
  counts   : Option (Nat × Bool)
  deriving DecidableEq, Repr

/-- A handling that changes the meter alone. -/
def Handling.quiet (m : Meter) : Handling := { meter := m, defects := [], reprimed := false, counts := none }

/-- The channel is LIVE with a new baseline, nothing held and its stale timer restarted. -/
def Meter.adopt (timeout v : Nat) (m : Meter) : Meter :=
  { m with state := .live, baseline := v, candidate := none, suspectCount := none, gap := 0,
           timer := some timeout }

/-- The channel is SUSPECT with candidate `v` and count `n`, its stale timer restarted. -/
def Meter.doubt (timeout v n : Nat) (m : Meter) : Meter :=
  { m with state := .suspect, candidate := some v, suspectCount := some n, gap := 0,
           timer := some timeout }

/-! ### The meter state machine (R60 to R68) -/

/-- A READING in LIVE (R61, R62). -/
def Meter.readLive (c : ChannelSetup) (v : Nat) (m : Meter) : Handling :=
  let d := c.forward m.baseline v
  if d ≤ c.ceiling then
    { meter := m.adopt c.timeout v, defects := [], reprimed := false, counts := some (d, false) }
  else if c.modulus - d ≤ c.tolerance then
    { meter := { m with timer := some c.timeout }, defects := [.implausible], reprimed := false, counts := none }
  else
    { meter := m.doubt c.timeout v 1, defects := [.implausible], reprimed := false, counts := none }

/-- A READING in SUSPECT (R63, R64). -/
def Meter.readSuspect (c : ChannelSetup) (threshold v : Nat) (m : Meter) : Handling :=
  let d := c.forward m.baseline v
  let count := m.suspectCount.getD 0 + 1
  if d ≤ c.ceiling then
    { meter := m.adopt c.timeout v, defects := [], reprimed := false, counts := some (d, false) }
  else if c.forward (m.candidate.getD 0) v ≤ c.ceiling then
    if threshold ≤ count then
      { meter := m.adopt c.timeout v, defects := [], reprimed := true, counts := none }
    else .quiet (m.doubt c.timeout v count)
  else
    { meter := m.doubt c.timeout v 1, defects := [.implausible], reprimed := false, counts := none }

/-- A READING in STALE, judged against the widened ceiling (R67). -/
def Meter.readStale (c : ChannelSetup) (v : Nat) (m : Meter) : Handling :=
  let d := c.forward m.baseline v
  if d ≤ c.ceiling * (m.gap + 1) then
    { meter := m.adopt c.timeout v, defects := [], reprimed := false, counts := some (d, true) }
  else
    { meter := m.doubt c.timeout v 1, defects := [.implausible], reprimed := false, counts := none }

/-- A GOOD or ESTIMATED record in the state machine; `s` is its sequence number, `v` its reading. -/
def Meter.machine (c : ChannelSetup) (threshold : Nat) (kind : RecordKind) (s : BitVec 8) (v : Nat)
    (m : Meter) : Handling :=
  match kind, m.state with
  | _, .retired => .quiet m
  | .resetNotice, _ => .quiet { m.adopt c.timeout v with residue := 0, lastSequence := some s }
  | .reading, .unseen => .quiet { m.adopt c.timeout v with lastSequence := some s }
  | .reading, .live => m.readLive c v
  | .reading, .suspect => m.readSuspect c threshold v
  | .reading, .stale => m.readStale c v

/-- A record past the sequence check: a FAULT record is dropped and reported, any other goes to the state
machine (R59). -/
def Meter.judged (c : ChannelSetup) (threshold : Nat) (r : TapRecord) (m : Meter) : Handling :=
  if r.quality = .fault then
    { meter := m, defects := [.faultTagged], reprimed := false, counts := none }
  else m.machine c threshold r.kind r.sequence (r.value.toNat % c.modulus)

/-- A record handled at its entry: quality, sequence check, FAULT records, state machine, in this order
(R56 to R59). -/
def Meter.handle (c : ChannelSetup) (threshold : Nat) (r : TapRecord) (m : Meter) : Handling :=
  if r.quality = .test then .quiet m
  else match m.lastSequence with
    | none => m.judged c threshold r
    | some last =>
      let diff := (r.sequence - last).toNat
      if diff = 0 ∨ 128 ≤ diff then
        { meter := m, defects := [.duplicateLate], reprimed := false, counts := none }
      else
        let h := { m with lastSequence := some r.sequence }.judged c threshold r
        if diff = 1 then h else { h with defects := .sequenceGap :: h.defects }

/-! ### Conversion (R71 to R73) -/

/-- The energy class of an ENERGY entry (section 10.4). -/
def energyClass : Nat → Quantity
  | 0 => .thermal
  | 1 => .electric
  | _ => .auxiliary

/-- The mass of a mass role (section 10.4). -/
def massRole : Nat → Quantity
  | 0 => .pulled
  | _ => .packed

/-- A credit of `d` counts converted: the quantity, the amount and the residue afterwards (R71, R72). -/
def ChannelSetup.convert (c : ChannelSetup) (weight residue d : Nat) : Quantity × Nat × Nat :=
  match c.kind with
  | .energy => (energyClass c.role, (d * c.factor + residue) / 65536, (d * c.factor + residue) % 65536)
  | .massDirect => (massRole c.role, (d * c.factor + residue) / 65536, (d * c.factor + residue) % 65536)
  | .massCount => if weight = 0 then (.unweighed, d, residue) else (massRole c.role, d * weight, residue)
  | .invalid => (.unweighed, 0, residue)

/-! ### Taking a record (R33, R53, R55) -/

/-- The handling of a record at entry `e`: the entry's new meter state, its defects, at most one credit and at
most one reprime notice to the entry's line (R53, R64, R73, R74). -/
def State.handleRecord (r : TapRecord) (e : Fin 256) (s : State) : State :=
  let c := s.cfg.channel e
  let h := s.channels.meters[e].handle c s.cfg.reprimeThreshold r
  let conv := match h.counts with
    | some (d, carried) =>
      let q := c.convert (s.lines.lines[c.line]).unitWeight h.meter.residue d
      ({ h.meter with residue := q.2.2 },
       some ({ quantity := q.1, amount := q.2.1, estimated := r.quality == Quality.estimated,
               carriedIn := carried } : Credit))
    | none => (h.meter, none)
  let s1 := s.withMeters (s.channels.meters.set e conv.1)
  let s2 := { s1 with alerts := (s1.alerts.reportAll s.cfg h.defects).latchIf h.reprimed .reprimed }
  let s3 := if h.reprimed then s2.withBooks (s2.books.reprimeNotice c.line) else s2
  match conv.2 with
  | some credit =>
    if credit.amount = 0 then s3 else s3.withBooks (s3.books.credit s.cfg c.line credit)
  | none => s3

/-- The occupancy has fallen to the low-water mark: the hold request drops (R35). -/
def State.afterRemoval (s : State) : State :=
  if s.intake.queue.length ≤ s.cfg.lowWater then s.dropRequest else s

/-- The head record removed and handled; a channel number that no enabled entry holds is dropped with
ADMIT_DROP (R33, R53). -/
def State.takeRecord (s : State) : State :=
  match s.intake.queue with
  | [] => s
  | r :: rest =>
    let s1 := { s with intake := { s.intake with queue := rest } }.afterRemoval
    match s.cfg.entryOf r.channel with
    | none => { s1 with alerts := s1.alerts.report s.cfg .admitDrop }
    | some e => s1.handleRecord r e

/-- The part is ACTIVE or APPLYING. -/
def Part.working : Part → Bool
  | .active => true
  | .applying _ => true
  | .fetching => false
  | .unset => false

/-- RECORD_TAKE (R55): while the part is ACTIVE or APPLYING, the pause is clear and no record is in hand. -/
def execRecordTake (s : State) : Result :=
  stepWhen (s.steady && s.setup.part.working && !s.channels.pause && s.channels.inHand.isNone &&
    !s.intake.queue.isEmpty) State.takeRecord s

/-! ### Stale expiry (R66, R69) -/

/-- The expiry of a running stale timer: LIVE and SUSPECT become STALE; STALE raises its gap count (R66). -/
def Meter.expire (timeout : Nat) (m : Meter) : Meter :=
  match m.state with
  | .live => { m with state := .stale, candidate := none, suspectCount := none, gap := 1,
                      timer := some timeout, staleInBin := true }
  | .suspect => { m with state := .stale, candidate := none, suspectCount := none, gap := 1,
                         timer := some timeout, staleInBin := true }
  | .stale => { m with gap := satAdd (top 8) m.gap 1, timer := some timeout }
  | .unseen => m
  | .retired => m

/-- The meter is LIVE or SUSPECT. -/
def Meter.trusted (m : Meter) : Bool := m.state == .live || m.state == .suspect

/-- The expiry of entry `e`'s stale timer, with STALE_ENTER where the channel enters STALE (R66). -/
def State.expireStale (e : Fin 256) (s : State) : State :=
  let m := s.channels.meters[e]
  let s1 := s.withMeters (s.channels.meters.set e (m.expire (s.cfg.channel e).timeout))
  { s1 with alerts := s1.alerts.latchIf m.trusted .staleEnter }

/-- STALE_EXPIRY (R65, R66): a timer runs in LIVE, SUSPECT and STALE. -/
def execStaleExpiry (entry : Fin 256) (s : State) : Result :=
  stepWhen (s.steady && s.channels.meters[entry].timer == some 0 &&
    (s.channels.meters[entry].trusted || s.channels.meters[entry].state == .stale))
    (State.expireStale entry) s

/-- A channel entry made UNSEEN: candidate, suspect count and last sequence absent, gap count 0, timer stopped;
baseline, residue and stale-in-bin flag kept (R75). -/
def Meter.unseen (m : Meter) : Meter :=
  { m with state := .unseen, candidate := none, suspectCount := none, lastSequence := none, gap := 0,
           timer := none }

/-- A fresh UNSEEN entry: residue and stale-in-bin flag cleared as well (R77, R78). -/
def Meter.fresh (m : Meter) : Meter := { m.unseen with residue := 0, staleInBin := false }

/-- An entry retired by an apply: baseline and residue kept (R78). -/
def Meter.retire (m : Meter) : Meter := { m.unseen with state := .retired, staleInBin := false }

end Sys2Proof.Machine
end

