-- ==== Sys2Proof/Machine/IntakeUnit.lean ====
section
/-! DEFINITION. The Intake Unit (chapter 2): recognition, assembly, checks, the intake queue, spill. -/

namespace Sys2Proof.Machine

/-- The Intake Unit with the Alert Unit that it reports to. -/
structure Desk where
  intake : Intake
  alerts : Alerts
  deriving DecidableEq, Repr

/-- One defect reported (R37). -/
def Desk.report (m : Image) (c : DefectClass) (x : Desk) : Desk := { x with alerts := x.alerts.report m c }

/-- Window `i` of the desk. -/
def Desk.window (x : Desk) (i : Fin 4) : WindowState := x.intake.windows[i]

/-- Window `i` replaced. -/
def Desk.setWindow (i : Fin 4) (w : WindowState) (x : Desk) : Desk :=
  { x with intake := { x.intake with windows := x.intake.windows.set i w } }

/-- The buffer of window `i` empties and its timer stops. -/
def Desk.emptyBuffer (i : Fin 4) (x : Desk) : Desk :=
  x.setWindow i { x.window i with partialRecord := none, timer := none }

/-! ### Header words (R21) -/

/-- The kind that a header's encoding names (section 10.1). -/
def recordKindOf : Nat → Option RecordKind
  | 1 => some .reading
  | 2 => some .resetNotice
  | _ => none

/-- The length that a header word announces, where the word is one (R21). -/
def headerLength (w : WriteWord) : Option Nat :=
  let n := bits w.data 15 8
  if allEnabled w ∧ bits w.data 31 24 = 0x5C ∧ (recordKindOf (bits w.data 23 20)).isSome ∧
      bits w.data 19 16 ≤ 2 ∧ n = 3 + bits w.data 19 16 then some n
  else none

/-- A word written with all four byte enables whose marker byte is 5Ch (R26). -/
def markerWord (w : WriteWord) : Bool := allEnabled w && bits w.data 31 24 == 0x5C

/-! ### Checks on a complete record (R29, R31, R32) -/

/-- The fields of a complete record, from its words (section 10.1). -/
def tapRecordOf (ws : List Word) : TapRecord :=
  let header := ws.getD 0 0
  { kind := (recordKindOf (bits header 23 20)).getD .reading,
    sequence := header.truncate 8, channel := bits (ws.getD 1 0) 11 0,
    tags := (ws.drop 2).dropLast, value := ws.getLastD 0 }

/-- A record joins the queue, or is dropped as SPILLED where it holds 64; the accepted total rises, and the hold
request rises at the high-water mark (R32, R34, R35). -/
def Desk.enqueue (m : Image) (r : TapRecord) (x : Desk) : Desk :=
  if x.intake.queue.length < 64 then
    { x with intake := { x.intake with
        queue := x.intake.queue ++ [r], accepted := x.intake.accepted + 1,
        holdRequest := x.intake.holdRequest || decide (m.highWater ≤ x.intake.queue.length + 1) } }
  else x.report m .spilled

/-- A complete record of window `i`: the inject flag and the check word, then the admit map, then the queue
(R29, R31, R32). -/
def Desk.complete (m : Image) (i : Fin 4) (ws : List Word) (x : Desk) : Desk :=
  if (x.window i).inject then
    (x.setWindow i { x.window i with inject := false }).report m .checkFail
  else if spanValid ws then
    if m.admits (tapRecordOf ws).channel then x.enqueue m (tapRecordOf ws) else x.report m .admitDrop
  else x.report m .checkFail

/-! ### Starting and continuing records (R22 to R26) -/

/-- A record starts at a header word at `address`, with length `len`, in window `i` (R23, R25): it does not fit
and is stray; or a word of it lacks byte enables and it is dropped; or it is whole and goes to the checks; or
the words so far go into the assembly buffer. The flag says whether examination goes on after the record. -/
def Desk.start (m : Image) (i : Fin 4) (address len : Nat) (ws : List WriteWord) (x : Desk) : Desk × Bool :=
  if (m.window i).last < address + 4 * (len - 1) then (x.report m .stray, false)
  else if !(ws.take len).all allEnabled then (x.report m .stray, false)
  else if len ≤ ws.length then (x.complete m i ((ws.take len).map WriteWord.data), true)
  else
    (x.setWindow i { x.window i with
       partialRecord := some { words := ws.map WriteWord.data, length := len,
                               expected := address + 4 * ws.length },
       timer := some (m.window i).timeout }, false)

/-- After a record, the next examined word (R26): a header word starts a further record, a malformed marker word
is stray, any other word is padding. `fuel` bounds the number of records in a burst. -/
def Desk.scan (m : Image) (i : Fin 4) : Nat → Nat → List WriteWord → Desk → Desk
  | 0, _, _, x => x
  | _ + 1, _, [], x => x
  | fuel + 1, address, w :: ws, x =>
    match headerLength w with
    | some len =>
      let r := x.start m i address len (w :: ws)
      if r.2 then Desk.scan m i fuel (address + 4 * len) ((w :: ws).drop len) r.1 else r.1
    | none => if markerWord w then x.report m .stray else x

/-- A burst that continues the partial record `p` of window `i` (R24, R25). -/
def Desk.continue (m : Image) (i : Fin 4) (address : Nat) (p : Partial) (ws : List WriteWord)
    (x : Desk) : Desk :=
  let missing := p.length - p.words.length
  let taken := ws.take missing
  if !taken.all allEnabled then (x.emptyBuffer i).report m .stray
  else if missing ≤ ws.length then
    ((x.emptyBuffer i).complete m i (p.words ++ taken.map WriteWord.data)).scan m i 16
      (address + 4 * missing) (ws.drop missing)
  else
    x.setWindow i { x.window i with
      partialRecord := some { p with words := p.words ++ taken.map WriteWord.data,
                                     expected := p.expected + 4 * ws.length } }

/-- An examined window burst, by its first word, the buffer and the expected address (R22). -/
def Desk.burst (m : Image) (i : Fin 4) (address : Nat) (ws : List WriteWord) (x : Desk) : Desk :=
  let fresh (x : Desk) : Desk :=
    match ws with
    | [] => x
    | w :: _ =>
      if (headerLength w).isSome then x.scan m i 16 address ws else x.report m .stray
  match (x.window i).partialRecord, ws with
  | some p, w :: _ =>
    if address = p.expected then x.continue m i address p ws
    else if (headerLength w).isSome then fresh ((x.emptyBuffer i).report m .stray)
    else x.report m .stray
  | _, _ => fresh x

/-- The examined words of a window burst: up to the window's last word (R20). -/
def Window.examined (w : Window) (address : Nat) (ws : List WriteWord) : List WriteWord :=
  ws.take ((w.base + 4 * w.size - address) / 4)

/-- The Intake Unit's part in a write notice: a burst whose first word lies in an enabled window is examined,
or, with the spill mark, counted as one SPILLED (R20, R28). -/
def Desk.notice (m : Image) (spill : Bool) (address : Nat) (ws : List WriteWord) (x : Desk) : Desk :=
  match m.windowAt address with
  | none => x
  | some i => if spill then x.report m .spilled else x.burst m i address ((m.window i).examined address ws)

/-! ### Spill and timeout (R27, R28) -/

/-- Spill entry: every partial record is abandoned with one SPILLED each (R28). -/
def Desk.abandonAll (m : Image) (x : Desk) : Desk :=
  (List.finRange 4).foldl (fun x i =>
    if (x.window i).partialRecord.isSome then (x.emptyBuffer i).report m .spilled else x) x

/-- The desk of the state. -/
def State.desk (s : State) : Desk := { intake := s.intake, alerts := s.alerts }

/-- The desk put back. -/
def State.withDesk (s : State) (x : Desk) : State := { s with intake := x.intake, alerts := x.alerts }

/-- ASSEMBLY_TIMEOUT (R27): the partial record is abandoned and one STRAY is reported. -/
def execAssemblyTimeout (window : Fin 4) (s : State) : Result :=
  stepWhen (s.steady && s.intake.windows[window].timer == some 0 &&
    s.intake.windows[window].partialRecord.isSome)
    (fun s => s.withDesk ((s.desk.emptyBuffer window).report s.cfg .stray)) s

/-- Spill entry (R8, R28): HOLDING ends, SPILLING begins, partial records are abandoned, and the burst that
waited is accepted. -/
def State.enterSpill (s : State) : State :=
  match s.pass.heldWrite with
  | none => s
  | some (address, words) =>
    let s1 := s.leaveHold
    let s2 := { s1 with pass := { s1.pass with spilling := true }, alerts := s1.alerts.rise .spilling }
    (s2.withDesk (s2.desk.abandonAll s2.cfg)).acceptWrite address words

/-- HOLD_LIMIT_EXPIRY (R7, R8): the timer has reached zero with a burst still waiting, and no drop of the
request was taken first. -/
def execHoldLimitExpiry (s : State) : Result :=
  stepWhen (s.steady && s.pass.heldWrite.isSome && s.pass.holdTimer == some 0 && !s.pass.releaseDue)
    State.enterSpill s

end Sys2Proof.Machine
end

