-- ==== Sys2Proof/Machine/Matchers.lean ====
section
/-! DEFINITION. The Pattern Matchers (chapter 3): which bursts are tested, the CRC test, events and misfires. -/

namespace Sys2Proof.Machine

/-- The burst lies wholly in the matcher's range (R42). -/
def Matcher.covers (t : Matcher) (address length : Nat) : Bool :=
  t.enabled && decide (t.base ≤ address) && decide (address + 4 * length ≤ t.base + 4 * t.size)

/-- The positions of the selected words, in increasing order (R45). -/
def Matcher.selected (t : Matcher) : List Nat :=
  ((List.range 16).filter (fun i => t.mask.getLsbD i)).map (fun i => t.offset + i)

/-- The positions of the words a matcher uses: the selected words and, for JOB_MARK, the code and weight words
(R44). -/
def Matcher.used (t : Matcher) : List Nat :=
  t.selected ++ (if t.action = .jobMark then [t.codeOffset, t.weightOffset] else [])

/-- The burst reaches every word the matcher uses, and each was written with all four enables (R43, R44). -/
def Matcher.tests (t : Matcher) (ws : List WriteWord) : Bool :=
  t.used.all (fun k => match ws[k]? with
    | some w => allEnabled w
    | none => false)

/-- The data of the word at a position. -/
def wordAt (ws : List WriteWord) (k : Nat) : Word :=
  match ws[k]? with
  | some w => w.data
  | none => 0

/-- The burst matches: it is tested, and the CRC of the selected words equals the expected CRC (R42 to R47). -/
def Matcher.matched (t : Matcher) (address : Nat) (ws : List WriteWord) : Bool :=
  t.covers address ws.length && t.tests ws &&
  (crc16 (t.selected.map (wordAt ws))).toNat == t.expected

/-- The event of a match, with code and weight for a JOB_MARK (R48, R50). -/
def Matcher.event (t : Matcher) (ws : List WriteWord) : Option LineEvent :=
  match t.action with
  | .jobMark => some (.jobMark (bits (wordAt ws t.codeOffset) 9 0) (bits (wordAt ws t.weightOffset) 15 0))
  | .lineStop => some .lineStop
  | .lineStart => some .lineStart
  | .invalid => none

/-- A match misfires: an IDLE line, a JOB_MARK to a FURNACE, or a JOB_MARK with code 0 (R49). -/
def misfires (m : Image) (n : Fin 16) (e : LineEvent) (x : Books) : Bool :=
  (x.line n).state == .idle ||
  match e with
  | .jobMark code _ => m.kind n == .furnace || code == 0
  | .lineStop => false
  | .lineStart => false

/-- One match delivered: an event to its line, or MISFIRE latched (R49, R50). -/
def Books.deliver (m : Image) (n : Fin 16) (e : LineEvent) (x : Books) : Books :=
  if misfires m n e x then { x with ledger := { x.ledger with alerts := x.ledger.alerts.latch .misfire } }
  else x.event m n e

end Sys2Proof.Machine
end

