-- ==== Sys2Proof/Machine/Rings.lean ====
section
/-! DEFINITION. Result records and rings (chapters 6 and 10.2): forming records, the hand-overs, writing a record,
consumer index writes, initialising writes. -/

namespace Sys2Proof.Machine

/-! ### Forming records (R93, R183) -/

/-- An intensity: its value, whether it is absent, whether it saturated (R93). -/
structure Intensity where
  value     : Nat
  absent    : Bool
  saturated : Bool
  deriving DecidableEq, Repr

/-- floor(100 × energy / mass), absent for no mass, saturating at 4294967295 (R93). -/
def intensity (energy kg : Nat) : Intensity :=
  if kg = 0 then { value := 0, absent := true, saturated := false }
  else { value := min (100 * energy / kg) (top 32), absent := false,
         saturated := decide (top 32 < 100 * energy / kg) }

/-- The kind code of a result record (section 10.2). -/
def ResultKind.code : ResultKind → Nat
  | .bin => 0 | .epoch => 1 | .job => 2 | .tallyMiss => 3

/-- Word 0 of a result record, with its lost-before count not yet filled in (section 10.2). -/
def recordWord0 (kind : ResultKind) (line : Fin 16) (field merged : Nat) : Word :=
  BitVec.ofNat 32 (kind.code * 2 ^ 30 + line.val * 2 ^ 26 + field * 2 ^ 16 + merged * 2 ^ 8)

/-- Word 15 of a result record, with its check word not yet filled in (section 10.2). -/
def recordWord15 (saturated stopped changeover grossAbsent netAbsent clipped : Bool) (reprimes : Nat) :
    Word :=
  BitVec.ofNat 32 ((saturated.toNat + 2 * stopped.toNat + 4 * changeover.toNat + 8 * grossAbsent.toNat +
    16 * netAbsent.toNat + 32 * clipped.toNat) * 2 ^ 24 + reprimes * 2 ^ 16)

/-- A word of a number. -/
def word (n : Nat) : Word := BitVec.ofNat 32 n

/-- The total energy of a snapshot: a FORMING line's includes its furnace share (R93). -/
def Sums.total (kind : LineKind) (x : Sums) : Nat :=
  x.energy + (if kind = .forming then x.share else 0)

/-- Words 1 to 14 of a BIN or EPOCH record (section 10.2). -/
def spanWords (start covered stale : Nat) (x : Sums) (gross net : Intensity) : List Word :=
  [word start, word x.thermal, word x.electric, word x.auxiliary, word x.share, word x.carriedIn,
   word x.estimated, word x.changeover, word x.pulledKg, word x.packedKg, word gross.value,
   word net.value, word (min stale 255 * 2 ^ 24 + min covered 16777215),
   word (x.unweighed * 2 ^ 16 + min x.stoppedSeconds 65535)]

/-- A field of a BIN or EPOCH record is clipped (R183). -/
def spanClipped (covered stale : Nat) (x : Sums) : Bool :=
  decide (16777215 < covered) || decide (255 < stale) || decide (65535 < x.stoppedSeconds)

/-- A record with the saturation of its intensities. -/
structure Formed where
  record    : ResultRecord
  saturated : Bool
  deriving DecidableEq, Repr

/-- The BIN record of a closing snapshot (R93, R183). -/
def BinSnapshot.record (n : Fin 16) (b : BinSnapshot) : Formed :=
  let gross := intensity (b.sums.total b.kind) b.sums.pulledKg
  let net := intensity (b.sums.total b.kind) b.sums.packedKg
  let sat := gross.saturated || net.saturated
  { record := {
      kind := .bin, line := n,
      words :=
      [recordWord0 .bin n b.jobCode b.merged] ++ spanWords b.start b.covered b.stale b.sums gross net ++
      [recordWord15 (b.flags.saturated || sat) b.flags.stopped b.flags.changeover gross.absent net.absent
        (spanClipped b.covered b.stale b.sums) b.sums.reprimes] },
    saturated := sat }

/-- The EPOCH record of an epoch snapshot (R93, R183). -/
def EpochSnapshot.record (n : Fin 16) (e : EpochSnapshot) : Formed :=
  let x := e.epoch.sums
  let gross := intensity (x.total e.kind) x.pulledKg
  let net := intensity (x.total e.kind) x.packedKg
  let sat := gross.saturated || net.saturated
  { record := {
      kind := .epoch, line := n,
      words :=
      [recordWord0 .epoch n (min e.epoch.bins 1023) e.merged] ++
      spanWords e.epoch.start e.epoch.covered e.epoch.stale x gross net ++
      [recordWord15 (e.epoch.flags.saturated || sat) e.epoch.flags.stopped e.epoch.flags.changeover
        gross.absent net.absent
        (spanClipped e.epoch.covered e.epoch.stale x || decide (1023 < e.epoch.bins)) x.reprimes] },
    saturated := sat }

/-- The JOB record of a job snapshot (R93, R183). -/
def JobSnapshot.record (n : Fin 16) (j : JobSnapshot) : Formed :=
  let gross := intensity j.energy j.pulledKg
  let net := intensity j.energy j.packedKg
  let sat := gross.saturated || net.saturated
  { record := {
      kind := .job, line := n,
      words :=
      [recordWord0 .job n j.code j.merged, word j.start, word j.finish] ++ splitWords j.energy ++
      splitWords j.share ++
      [word j.changeover, word j.changeoverSeconds, word (min j.pulledKg (top 32)),
       word (min j.packedKg (top 32)), word gross.value, word net.value, 0, 0,
       recordWord15 (j.saturated || sat) false false gross.absent net.absent
         (decide (top 32 < j.pulledKg) || decide (top 32 < j.packedKg)) 0] },
    saturated := sat }

/-- The TALLY_MISS record of a miss-list entry (R137, section 10.2). -/
def Miss.record (x : Miss) : ResultRecord :=
  { kind := .tallyMiss, line := x.line,
    words :=
      [recordWord0 .tallyMiss x.line 0 (x.count - 1),
       word (x.locked.toNat * 2 ^ 24 + x.writeFault.toNat * 2 ^ 18 + x.readFault.toNat * 2 ^ 17 +
         x.contention.toNat * 2 ^ 16 + x.entry)] ++
      splitWords x.energy ++
      [word x.pulled, word x.packed, word x.changeover, word x.counted, word x.time, 0, 0, 0, 0, 0, 0,
       recordWord15 x.saturated false false false false false 0] }

/-! ### Hand-overs (R98, R137) -/

/-- The record of a snapshot of a line, and the line without it (R98). -/
def Line.takeSnapshot (kind : SnapshotKind) (n : Fin 16) (l : Line) : Option Formed × Line :=
  match kind with
  | .bin => (l.closing.map (BinSnapshot.record n), { l with closing := none })
  | .epoch => (l.epochSnap.map (EpochSnapshot.record n), { l with epochSnap := none })
  | .job => (l.jobSnap.map (JobSnapshot.record n), { l with jobSnap := none })

/-- The head of the hand-over list formed into a record and put into the writer queue (R98). -/
def State.handOverHead (s : State) : State :=
  match s.lines.handOver with
  | [] => s
  | (kind, n) :: rest =>
    let r := s.lines.lines[n].takeSnapshot kind n
    let s1 := { s with lines := { s.lines with lines := s.lines.lines.set n r.2, handOver := rest } }
    match r.1 with
    | none => s1
    | some f => { s1 with writer := { s1.writer with queue := s1.writer.queue ++ [f.record] },
                          alerts := s1.alerts.latchIf f.saturated .saturation }

/-- Hand-overs made one after another, at most `k`, while the writer queue has room (R98). -/
def State.handOvers : Nat → State → State
  | 0, s => s
  | k + 1, s => if s.handOversTaken then s else s.handOverHead.handOvers k

/-- HAND_OVER (R98, R109): whenever the list is not empty and the writer queue has a free place, also between two
deliveries of a write notice, so that a step of the clock and a CLOSE_BINS of one burst give a record each (R188;
log entry 8). -/
def execHandOver (s : State) : Result :=
  stepWhen (!s.inReset && !s.lines.handOver.isEmpty && decide (s.writer.queue.length < 16))
    State.handOverHead s

/-- The oldest miss-list entry handed over (R137). -/
def State.handOverMiss (s : State) : State :=
  match s.tally.misses with
  | [] => s
  | x :: rest => { s with tally := { s.tally with misses := rest },
                          writer := { s.writer with queue := s.writer.queue ++ [x.record] } }

/-- TALLY_MISS_HAND_OVER (R137). -/
def execTallyMissHandOver (s : State) : Result :=
  stepWhen (s.steady && !s.tally.misses.isEmpty && decide (s.writer.queue.length < 16)) State.handOverMiss s

/-! ### Taking a record into hand (R110 to R112) -/

/-- The ring's occupancy (R108). -/
def Ring.occupancy (r : Ring) : Nat := (r.producer - r.shadow).toNat

/-- The reserved producer (R108). -/
def Ring.reservedProducer (r : Ring) : BitVec 16 := if r.reserved then r.producer + 1 else r.producer

/-- A record lost: the overrun count and the pending lost count rise, saturating, and the ring is no longer
reserved (R111, R113, R114, R118). -/
def Ring.lose (r : Ring) : Ring :=
  { r with overrun := satAdd (top 16) r.overrun 1, pendingLost := satAdd (top 8) r.pendingLost 1,
           reserved := false }

/-- The record completed: lost-before count and check word (R112). -/
def completeRecord (lost : Nat) (ws : List Word) : List Word :=
  let w0 := (ws.getD 0 0 &&& 0xFFFFFF00#32) ||| word lost
  let bare := (ws.set 0 w0).set 15 (ws.getD 15 0 &&& 0xFFFF0000#32)
  bare.set 15 (bare.getD 15 0 ||| word (65535 - onesSum bare))

/-- The ring of line `n` replaced. -/
def Writer.setRing (n : Fin 16) (r : Ring) (w : Writer) : Writer := { w with rings := w.rings.set n r }

/-- The Result Writer has finished with the head record: its place frees (R109). -/
def Writer.finish (w : Writer) : Writer := { w with queue := w.queue.tail, step := none }

/-- An initialising write is owed to some ring (R119). -/
def Writer.initOwed (w : Writer) : Bool := w.rings.toList.any (fun r => r.initOwed)

/-- The head record taken into hand: no ring in force, a full ring, or the record completed and its record
write requested (R110, R111, R112). -/
def State.takeHead (s : State) : State :=
  match s.writer.queue with
  | [] => s
  | r :: rest =>
    let ring := s.writer.rings[r.line]
    if !s.cfg.ringInForce r.line then
      { s with writer := s.writer.finish, alerts := s.alerts.latch .ringOverrun }
    else if ring.occupancy = s.cfg.ringSize r.line then
      { s with writer := (s.writer.setRing r.line ring.lose).finish, alerts := s.alerts.latch .ringOverrun }
    else
      { s with writer := { s.writer.setRing r.line { ring with reserved := true } with
          queue := { r with words := completeRecord ring.pendingLost r.words } :: rest,
          step := some .recordWrite } }

/-- The downstream port carries an initialising write (R119). -/
def Port.isInitialisingWrite : Port → Bool
  | .internal (.initialisingWrite _) _ => true
  | _ => false

/-- The downstream port carries a record write (R113). -/
def Port.isRecordWrite : Port → Bool
  | .internal .recordWrite _ => true
  | _ => false

/-- The downstream port carries an index write (R114). -/
def Port.isIndexWrite : Port → Bool
  | .internal .indexWrite _ => true
  | _ => false

/-- TAKE_INTO_HAND (R110): no record is in hand, and every owed initialising write has been made (R119). -/
def execTakeIntoHand (s : State) : Result :=
  stepWhen (s.steady && s.writer.step.isNone && !s.writer.queue.isEmpty && !s.writer.initOwed &&
    !s.pass.port.isInitialisingWrite) State.takeHead s

/-! ### Record write and index write (R113, R114) -/

/-- The ring of a record discarded after a second ERROR: the record is lost, and a shadow consumer index one ahead
of the producer, which a consumer write has put there against the reserved producer, falls back to it (R114; for
the record write of R113 the occupancy bound of R115 asks for the same, log entry 19). -/
def Ring.unreserve (r : Ring) : Ring :=
  if r.shadow = r.producer + 1 then { r.lose with shadow := r.producer } else r.lose

/-- The record in hand discarded after a second ERROR: its place frees and MEMORY_FAULT is latched (R113, R114). -/
def State.discardRecord (s : State) : State :=
  match s.writer.queue with
  | [] => { s with writer := s.writer.finish, alerts := s.alerts.latch .memoryFault }
  | r :: _ =>
    { s with writer := (s.writer.setRing r.line (s.writer.rings[r.line]).unreserve).finish,
             alerts := s.alerts.latch .memoryFault }

/-- The record in hand published: the producer index moves on, the reservation and the pending lost count
clear, the place frees (R114). -/
def State.publishRecord (s : State) : State :=
  match s.writer.queue with
  | [] => { s with writer := s.writer.finish }
  | r :: _ =>
    let ring := s.writer.rings[r.line]
    { s with writer := (s.writer.setRing r.line
        { ring with producer := ring.producer + 1, reserved := false, pendingLost := 0 }).finish }

/-- The port free again. -/
def State.freePort (s : State) : State := { s with pass := { s.pass with port := .free } }

/-- The Result Writer's step replaced. -/
def State.writerStep (w : WriteStep) (s : State) : State :=
  { s with writer := { s.writer with step := some w } }

/-- The answer to a record write: OK leads to the index write; the first ERROR to one retry; the second to the
discard (R113). -/
def State.answerRecordWrite (answer : Answer) (s : State) : State :=
  let s := s.freePort
  match answer with
  | .ok => s.writerStep .indexWrite
  | .error => if s.writer.step = some .recordRetry then s.discardRecord else s.writerStep .recordRetry

/-- RECORD_WRITE_RESPONSE (R113). -/
def execRecordWriteResponse (answer : Answer) (s : State) : Result :=
  stepWhen (s.steady && s.pass.port.isRecordWrite) (State.answerRecordWrite answer) s

/-- The answer to an index write (R114). -/
def State.answerIndexWrite (answer : Answer) (s : State) : State :=
  let s := s.freePort
  match answer with
  | .ok => s.publishRecord
  | .error => if s.writer.step = some .indexRetry then s.discardRecord else s.writerStep .indexRetry

/-- INDEX_WRITE_RESPONSE (R114). -/
def execIndexWriteResponse (answer : Answer) (s : State) : Result :=
  stepWhen (s.steady && s.pass.port.isIndexWrite) (State.answerIndexWrite answer) s

/-- The answer to an initialising write: an ERROR latches MEMORY_FAULT and is not retried (R119). -/
def State.answerInitialisingWrite (answer : Answer) (s : State) : State :=
  match answer with
  | .ok => s.freePort
  | .error => s.freePort.latch .memoryFault

/-- INITIALISING_WRITE_RESPONSE (R119). -/
def execInitialisingWriteResponse (answer : Answer) (s : State) : Result :=
  stepWhen (s.steady && s.pass.port.isInitialisingWrite) (State.answerInitialisingWrite answer) s

/-! ### The consumer index (R115) -/

/-- The shadow with the enabled low two bytes of the word (R115). -/
def mergeIndex (old : BitVec 16) (w : WriteWord) : BitVec 16 :=
  (mergeBytes (old.zeroExtend 32) w).truncate 16

/-- Either of the low two bytes is enabled (R115). -/
def lowEnabled (w : WriteWord) : Bool := w.enables.getLsbD 0 || w.enables.getLsbD 1

/-- One word at the consumer index word of line `n`'s ring: a valid value becomes the shadow, an invalid one
latches CONSUMER_INVALID, a word that enables neither low byte does nothing (R115). -/
def State.consumerWord (n : Fin 16) (w : WriteWord) (s : State) : State :=
  let ring := s.writer.rings[n]
  let v := mergeIndex ring.shadow w
  if lowEnabled w then
    if (ring.reservedProducer - v).toNat ≤ s.cfg.ringSize n then
      { s with writer := s.writer.setRing n { ring with shadow := v } }
    else s.latch .consumerInvalid
  else s

/-- The line whose consumer index word lies at an address, among the rings in force (R115). -/
def Image.consumerLine (m : Image) (a : Nat) : Option (Fin 16) :=
  allLines.find? (fun n => m.ringInForce n && m.ringBase n + 4 == a)

/-- The words of a burst with their addresses. -/
def addressed (address : Nat) : List WriteWord → List (Nat × WriteWord)
  | [] => []
  | w :: ws => (address, w) :: addressed (address + 4) ws

/-- Some word of the burst lies at the consumer index word of a ring in force. -/
def Image.touchesConsumer (m : Image) (address : Nat) (ws : List WriteWord) : Bool :=
  (addressed address ws).any (fun c => (m.consumerLine c.1).isSome)

/-- Every word of the notice that lies at a consumer index word, in address order (R115). -/
def State.consumerNotice (address : Nat) (ws : List WriteWord) (s : State) : State :=
  (addressed address ws).foldl (fun s c =>
    match s.cfg.consumerLine c.1 with
    | some n => s.consumerWord n c.2
    | none => s) s

/-! ### Requests of the Result Writer (R107, R113, R114, R119) -/

/-- The byte address of a ring's slot 1 + (producer mod size) (R107). -/
def Image.slotAddress (m : Image) (n : Fin 16) (producer : BitVec 16) : Nat :=
  m.ringBase n + 64 * (1 + producer.toNat % m.ringSize n)

/-- The record write of the record in hand: 16 words, all byte enables (R113). -/
def State.recordWriteTxn (r : ResultRecord) (s : State) : Txn :=
  .write (s.cfg.slotAddress r.line (s.writer.rings[r.line]).producer) (r.words.map fullWord)

/-- The index write of the record in hand: producer index + 1 in bits 15–0 (R114). -/
def State.indexWriteTxn (r : ResultRecord) (s : State) : Txn :=
  .write (s.cfg.ringBase r.line) [fullWord (((s.writer.rings[r.line]).producer + 1).zeroExtend 32)]

/-- An initialising write: zero to words 0 and 1 of the index slot (R119). -/
def State.initialisingTxn (n : Fin 16) (s : State) : Txn :=
  .write (s.cfg.ringBase n) [fullWord 0, fullWord 0]

/-- The lowest line to whose ring an initialising write is owed (R119). -/
def Writer.owedLine (w : Writer) : Option (Fin 16) := allLines.find? (fun n => w.rings[n].initOwed)

/-- What the Result Writer requests: the write of the record in hand, else an owed initialising write (R113, R114,
R119). That the record in hand goes before an initialising write owed to another ring is the model's choice (log
entry 32); so is that owed writes are requested in APPLYING too (log entry 23). -/
def State.writerRequest (s : State) : Option (Client × Txn) :=
  match s.writer.step, s.writer.queue with
  | some .recordWrite, r :: _ => some (.recordWrite, s.recordWriteTxn r)
  | some .recordRetry, r :: _ => some (.recordWrite, s.recordWriteTxn r)
  | some .indexWrite, r :: _ => some (.indexWrite, s.indexWriteTxn r)
  | some .indexRetry, r :: _ => some (.indexWrite, s.indexWriteTxn r)
  | _, _ =>
    match s.writer.owedLine with
    | some n => some (.initialisingWrite n, s.initialisingTxn n)
    | none => none

end Sys2Proof.Machine
end

