-- ==== Sys2Proof/Machine/Validate.lean ====
section
/-! DEFINITION. The seven steps of validation (section 8.5): R41, R54, R80, R124, R151 to R155, R185. -/

namespace Sys2Proof.Machine

/-- The setup block and the status block: 8448 bytes (R154). -/
def blockSpan : Nat := 8448

/-- The tally table: 33280 bytes (R123). -/
def tallySpan : Nat := 33280

/-- The end of the 32-bit address space. -/
def spaceEnd : Nat := 2 ^ 32

/-- The words that enter the check sum, the command word, the argument and the clock word counting as zero
(R152). An unlisted word is zero and adds nothing. -/
def Image.summed (m : Image) : List Word :=
  (m.filter (fun c => decide (c.1 < 1352) && c.1 != 2 && c.1 != 3 && c.1 != 4)).map Prod.snd

/-- A counter's select names no listed class or pair, or its mode is neither manual nor automatic (R153,
R185). -/
def Image.counterFails (m : Image) (i : Fin 4) : Bool :=
  m.firstClass i == 0 || decide (9 < m.firstClass i) || decide (9 < m.secondClass i) ||
  m.secondClass i == m.firstClass i || decide (1 < m.counterMode i)

/-- An edge select names rising or both (R153). -/
def edgeNamed (sel : Nat) : Bool := sel == 1 || sel == 2

/-- Step 2: header word `w` fails (R153, R185). -/
def Image.headerFails (m : Image) (w : Nat) : Bool :=
  match w with
  | 6 => decide (1 < (m.get 6).toNat)
  | 7 => decide (m.highWater < 8) || decide (64 < m.highWater)
  | 8 => decide (m.highWater ≤ m.lowWater)
  | 9 => m.holdLimit == 0 || decide (255 < m.holdLimit)
  | 10 => decide (m.reprimeThreshold < 2) || decide (7 < m.reprimeThreshold)
  | 11 => m.counterFails 0
  | 12 => m.counterFails 1
  | 13 => m.counterFails 2
  | 14 => m.counterFails 3
  | 15 => m.reportInterval == 0
  | 17 => !(edgeNamed m.holdEdgeSelect && edgeNamed m.spillEdgeSelect && edgeNamed m.staleEdgeSelect)
  | _ => false

/-! ### Step 3: windows (R154) -/

/-- Line `n` has a ring of kind FURNACE or FORMING that overlaps a span (R154, 8). -/
def Image.ringOverlaps (m : Image) (n : Fin 16) (a len : Nat) : Bool :=
  overlaps a len (m.ringBase n) (m.ringSpan n)

/-- The range of matcher `i` overlaps a span. -/
def Matcher.overlapsSpan (t : Matcher) (a len : Nat) : Bool := overlaps a len t.base (4 * t.size)

/-- Window `i` fails (R154). `block` is the setup block's byte address. -/
def Image.windowFails (m : Image) (block : Nat) (i : Fin 4) : Bool :=
  let w := m.window i
  let len := 4 * w.size
  w.enabled &&
  (w.base % 4 != 0 || decide (w.size < 64) || decide (65536 < w.size) || w.timeout == 0 ||
   decide (spaceEnd < w.base + len) ||
   (List.finRange 4).any (fun j => j != i && (m.window j).enabled &&
     overlaps w.base len (m.window j).base (4 * (m.window j).size)) ||
   overlaps w.base len block blockSpan || overlaps w.base len m.tallyBase tallySpan ||
   allLines.any (fun n => m.kind n != .none && m.ringOverlaps n w.base len) ||
   (List.finRange 16).any (fun k => (m.matcher k).enabled && (m.matcher k).overlapsSpan w.base len))

/-! ### Step 4: matchers (R41) -/

/-- Matcher `i` fails (R41). A line whose kind encoding is 3 is not NONE (DEDUCED, log entry 16). A base that is not
word-aligned is not tested and stands as it is (DESIGN CHOICE, log entry 30). -/
def Image.matcherFails (m : Image) (block : Nat) (i : Fin 16) : Bool :=
  let t := m.matcher i
  let len := 4 * t.size
  t.enabled &&
  (decide (spaceEnd < t.base + len) || overlaps t.base len block blockSpan ||
   (List.finRange 4).any (fun j => (m.window j).enabled &&
     overlaps t.base len (m.window j).base (4 * (m.window j).size)) ||
   allLines.any (fun n => m.lineCode n != 0 && m.ringOverlaps n t.base len) ||
   overlaps t.base len m.tallyBase tallySpan || t.mask == 0 ||
   (List.range 16).any (fun k => t.mask.getLsbD k && decide (15 < t.offset + k)) ||
   t.action == .invalid)

/-! ### Step 5: lines (R80) -/

/-- The children of furnace `n`: the FORMING lines that name it as parent. -/
def Image.children (m : Image) (n : Fin 16) : List (Fin 16) :=
  allLines.filter (fun c => m.parent c == some n)

/-- A power of two from 16 to 4096. -/
def ringSizeValid (n : Nat) : Bool := [16, 32, 64, 128, 256, 512, 1024, 2048, 4096].contains n

/-- The ring of line `n` fails (R80, 6). -/
def Image.ringFails (m : Image) (block : Nat) (n : Fin 16) : Bool :=
  m.ringBase n % 64 != 0 || !ringSizeValid (m.ringSize n) ||
  decide (spaceEnd < m.ringBase n + m.ringSpan n) ||
  allLines.any (fun k => k != n && m.lineCode k != 0 && m.ringOverlaps k (m.ringBase n) (m.ringSpan n)) ||
  m.ringOverlaps n block blockSpan || m.ringOverlaps n m.tallyBase tallySpan

/-- The parent of line `n` fails: present on a FURNACE, or naming a line that is not a FURNACE (R80, 2). -/
def Image.parentFails (m : Image) (n : Fin 16) : Bool :=
  m.parentPresent n && (m.kind n == .furnace || m.kind (m.parentLine n) != .furnace)

/-- The bin or epoch length of a group head fails (R80, 4). -/
def Image.lengthsFail (m : Image) (n : Fin 16) : Bool :=
  let b := m.binLength n
  let e := m.epochLength n
  m.isHead n && (decide (b < 60) || decide (3600 < b) || 86400 % b != 0 || decide (e < 1) ||
    decide (64 < e) || 86400 % (b * e) != 0)

/-- Line `n` fails (R80). The fields of a line of kind NONE are not tested. -/
def Image.lineFails (m : Image) (block : Nat) (n : Fin 16) : Bool :=
  m.lineCode n != 0 &&
  (m.lineCode n == 3 || m.parentFails n ||
   (m.kind n == .furnace && decide (7 < (m.children n).length)) || m.lengthsFail n ||
   (m.kind n == .forming && decide (14400 < m.changeoverDuration n)) || m.ringFails block n)

/-! ### Step 6: channels (R54) -/

/-- The kind, with its class or mass role, is a listed one (R54, 2). -/
def ChannelSetup.kindValid (c : ChannelSetup) : Bool :=
  match c.kind with
  | .energy => decide (c.role ≤ 2)
  | .massDirect => decide (c.role ≤ 1)
  | .massCount => decide (c.role ≤ 1)
  | .invalid => false

/-- Channel entry `e` fails (R54). The fields of a disabled entry are not tested. -/
def Image.channelFails (m : Image) (e : Fin 256) : Bool :=
  let c := m.channel e
  m.channelEnabled e &&
  (m.kind c.line == .none || !c.kindValid || !(c.width == 16 || c.width == 24 || c.width == 32) ||
   decide (c.ceiling < 1) || decide (2 ^ 31 < c.ceiling) || decide (2 ^ c.width ≤ c.ceiling) ||
   decide (c.timeout < 1) ||
   allEntries.any (fun k => decide (k < e) && m.channelEnabled k && (m.channel k).channel == c.channel))

/-! ### Step 7: tally region (R124) -/

/-- The tally base fails (R124). -/
def Image.tallyFails (m : Image) (block : Nat) : Bool :=
  m.tallyBase % 32 != 0 || decide (spaceEnd < m.tallyBase + tallySpan) ||
  overlaps m.tallyBase tallySpan block blockSpan

/-! ### The seven steps (R151) -/

/-- A failed validation: the reject code of its step and the index of the failing entry (R151). -/
structure Reject where
  code  : Nat
  index : Nat
  deriving DecidableEq, Repr

/-- The reject of the first entry that fails. -/
def firstReject (code : Nat) (failing : List Nat) : Option Reject :=
  match failing with
  | [] => none
  | i :: _ => some { code := code, index := i }

/-- Steps 1 and 2 (R152, R153). -/
def Image.rejectHeader (m : Image) : Option Reject :=
  if m.magic ≠ 0x57A4C0DE#32 then some { code := 1, index := 0 }
  else if !spanValid m.summed then some { code := 2, index := 0 }
  else firstReject 3 ((List.range 18).filter m.headerFails)

/-- Validation of a candidate: the first failure of the seven steps, or none (R151). -/
def Image.validate (m : Image) (block : Nat) : Option Reject :=
  m.rejectHeader <|>
  firstReject 4 (((List.finRange 4).filter (m.windowFails block)).map Fin.val) <|>
  firstReject 5 (((List.finRange 16).filter (m.matcherFails block)).map Fin.val) <|>
  firstReject 6 ((allLines.filter (m.lineFails block)).map Fin.val) <|>
  firstReject 7 ((allEntries.filter m.channelFails).map Fin.val) <|>
  (if m.tallyFails block then some { code := 8, index := 0 } else none)

end Sys2Proof.Machine
end

