-- ==== Sys2Proof/Machine/Commands.lean ====
section
/-! DEFINITION. The commands of the command word (section 8.7): CLOSE_BINS, RESTART, REPRIME, TRANSFER_COUNTERS,
INJECT_CHECK_FAULT, codes with no command, and how each part state deals with a taken command. -/

namespace Sys2Proof.Machine

/-! ### What each command does in ACTIVE (R163) -/

/-- A command's effect and its result. -/
abbrev Carried := State × CommandOutcome

/-- The lines named by a mask, in increasing number. -/
def maskLines (arg : Word) : List (Fin 16) := allLines.filter (fun n => arg.getLsbD n)

/-- The mask of CLOSE_BINS is not 0, has no bit above 15, and every set bit names a group head (R102). -/
def Image.maskValid (m : Image) (arg : Word) : Bool :=
  arg != 0 && decide (arg.toNat < 2 ^ 16) && (maskLines arg).all m.isHead

/-- CLOSE_BINS: each named group closes, in increasing head number, without its epoch (R102). -/
def State.closeNamed (arg : Word) (s : State) : Carried :=
  if s.cfg.maskValid arg then
    (s.withBooks ((maskLines arg).foldl (fun x h => x.closeGroup s.cfg h false) s.books), .done)
  else (s, .badArgument)

/-- What RESTART leaves of a line of the given kind: nothing of its accounts (R103). -/
def Line.restarted (kind : LineKind) (now : Nat) : Line :=
  { state := if kind = .none then .idle else .running, changeoverPending := false, timer := none,
    jobCode := 0, unitWeight := 0, bin := .opened now .clear, closing := none, epoch := .opened now,
    epochSnap := none, job := .opened now, jobSnap := none, pulledResidue := 0, packedResidue := 0,
    summarySaturation := false }

/-- RESTART in the Intake Unit: queue and buffers empty, timers stopped, inject flags clear (R39). -/
def Intake.restarted (i : Intake) : Intake :=
  { i with queue := [], windows := Vector.replicate 4 .empty }

/-- RESTART in the Channel Unit: every enabled entry UNSEEN, its residue and flag cleared (R77). -/
def Channels.restarted (m : Image) (c : Channels) : Vector Meter 256 :=
  tabulate 256 (fun e => if m.channelEnabled e then c.meters[e].fresh else c.meters[e])

/-- RESTART in the Alert Unit: counts and latched copies 0; the counters group is owed where a latched copy was
not 0 (R181). -/
def Alerts.restarted (a : Alerts) : Alerts :=
  { a with counters := Vector.replicate 4 { count := 0, latch := 0 },
           owed := { a.owed with counters := a.owed.counters || a.counters.toList.any (fun c => c.latch != 0) } }

/-- RESTART (R18, R36, R39, R77, R103, R122, R140, R181). The Pass Controller, Result Writer, Tally Engine and
Setup Unit are left as they are, but for the drop of the hold request. A record's credit always reaches its line
before or after the whole step, never inside it (DESIGN CHOICE, log entry 31). -/
def State.restartUnits (s : State) : Carried :=
  let now := s.lines.clock.toNat
  let s1 := { s with intake := s.intake.restarted }.dropRequest
  let s2 := s1.withMeters (s1.channels.restarted s1.cfg)
  ({ s2 with
     lines := { s2.lines with lines := tabulate 16 (fun n => Line.restarted (s2.cfg.kind n) now),
                              handOver := [] },
     alerts := s2.alerts.restarted }, .done)

/-- REPRIME of the entry its argument names (R75). -/
def State.reprimeEntry (arg : Word) (s : State) : Carried :=
  if h : arg.toNat < 256 then
    let e : Fin 256 := ⟨arg.toNat, h⟩
    if s.cfg.channelEnabled e then
      (s.withMeters (s.channels.meters.set e (s.channels.meters[e].unseen)), .done)
    else (s, .badArgument)
  else (s, .badArgument)

/-- TRANSFER_COUNTERS: every counter whose mode is manual (R178). -/
def State.transferManual (s : State) : Carried :=
  ({ s with alerts := s.alerts.transfer (fun i => !s.cfg.automatic i) }, .done)

/-- INJECT_CHECK_FAULT: the inject flag of the named window (R30). -/
def State.injectFault (arg : Word) (s : State) : Carried :=
  if h : arg.toNat < 4 then
    let i : Fin 4 := ⟨arg.toNat, h⟩
    (s.withDesk (s.desk.setWindow i { s.desk.window i with inject := true }), .done)
  else (s, .badArgument)

/-- The command code of a command word (section 10.4). -/
def commandCode (word : Word) : Nat := bits word 7 0

/-- A command carried out in ACTIVE (R163). -/
def State.command (word arg : Word) (s : State) : Carried :=
  match commandCode word with
  | 1 => s.closeNamed arg
  | 2 => s.restartUnits
  | 3 => s.reprimeEntry arg
  | 4 => s.transferManual
  | 5 => s.injectFault arg
  | _ => (s, .badArgument)

/-- A command carried out, and its result handed over with COMMAND_DONE (R163). -/
def State.carryOut (word arg : Word) (s : State) : State :=
  let r := s.command word arg
  { r.1 with alerts := r.1.alerts.giveResult word r.2 }

/-! ### A taken command by part state (R162) -/

/-- A taken command dealt with according to the part state (R162). -/
def State.dealWith (word arg : Word) (s : State) : State :=
  match s.setup.part with
  | .fetching => s
  | .unset =>
    if commandCode word = 0 then s
    else { s with alerts := s.alerts.giveResult word .refusedUnset }
  | .applying _ =>
    { s with setup := { s.setup with
        waiting := if commandCode word = 0 then none else some (word, arg) } }
  | .active => if commandCode word = 0 then s else s.carryOut word arg

/-! ### Deliveries of a write notice to the Setup Unit (R144, R188) -/

/-- The notice once its deliveries are made. -/
def Notice.settled (n : Notice) : Option Notice :=
  if n.captureDue || n.clockDue || n.generationDue || n.commandDue || n.consumerDue then some n else none

/-- The notice in delivery replaced. -/
def State.setNotice (n : Notice) (s : State) : State :=
  { s with pass := { s.pass with notice := n.settled } }

/-- The command test is the next delivery: capture, clock word and generation word come before it (R188). -/
def Notice.commandNext (n : Notice) : Bool :=
  n.commandDue && !n.captureDue && !n.clockDue && !n.generationDue

/-- The shadow's command word. -/
def State.shadowCommand (s : State) : Word := s.setup.shadow.get 2

/-- The changed command word is the next delivery, and its code is one of those named. -/
def State.commandReady (codes : Nat → Bool) (s : State) : Bool :=
  !s.inReset && codes (commandCode s.shadowCommand) &&
  match s.pass.notice with
  | some n => n.commandNext
  | none => false

/-- The command is taken: the last command word becomes the shadow's, the argument is the shadow's as it
stands (R161), and the command is dealt with (R162). -/
def State.takeCommand (s : State) : State :=
  match s.pass.notice with
  | none => s
  | some n =>
    let s1 := s.setNotice { n with commandDue := false }
    let s2 := { s1 with setup := { s1.setup with lastCommand := s1.shadowCommand } }
    s2.dealWith s.shadowCommand (s.setup.shadow.get 3)

/-- NO_COMMAND: code 0 (R161, R162). -/
def execNoCommand (s : State) : Result := stepWhen (s.commandReady (· == 0)) State.takeCommand s

/-- CLOSE_BINS: code 1 (R102, R162). The closes of the clock's last advance come before it (log entry 12). -/
def execCloseBins (s : State) : Result :=
  stepWhen (s.commandReady (· == 1) && s.closesTaken) State.takeCommand s

/-- RESTART: code 2 (R163). The closes of the clock's last advance come before it (log entry 12). -/
def execRestart (s : State) : Result :=
  stepWhen (s.commandReady (· == 2) && s.closesTaken) State.takeCommand s

/-- REPRIME: code 3 (R75). -/
def execReprime (s : State) : Result := stepWhen (s.commandReady (· == 3)) State.takeCommand s

/-- TRANSFER_COUNTERS: code 4 (R178). -/
def execTransferCounters (s : State) : Result := stepWhen (s.commandReady (· == 4)) State.takeCommand s

/-- INJECT_CHECK_FAULT: code 5 (R30). -/
def execInjectCheckFault (s : State) : Result := stepWhen (s.commandReady (· == 5)) State.takeCommand s

/-- UNDEFINED_COMMAND: a code from 6 to 255 (R163). -/
def execUndefinedCommand (s : State) : Result :=
  stepWhen (s.commandReady (fun c => decide (6 ≤ c))) State.takeCommand s

end Sys2Proof.Machine
end

