-- ==== Sys2Proof/Machine/Apply.lean ====
section
/-! DEFINITION. The Setup Unit (chapter 8): capture, fetch, the start of an apply, validation, quiesce, forced
close, installation and resume. -/

namespace Sys2Proof.Machine

/-! ### Capture (R144) -/

/-- The number of the setup word that lies at an address, where the address lies in the block (R144). -/
def Setup.wordNumber (u : Setup) (a : Nat) : Option Nat :=
  if u.blockAddress ≤ a ∧ a < u.blockAddress + 8192 then some ((a - u.blockAddress) / 4) else none

/-- One word of a notice merged into an image of the block (R144). -/
def Image.merge (m : Image) (i : Nat) (w : WriteWord) : Image := m.set i (mergeBytes (m.get i) w)

/-- The words of a notice that lie in the block merged into the shadow (R144). -/
def Setup.capture (u : Setup) (address : Nat) (ws : List WriteWord) : Image :=
  (addressed address ws).foldl (fun m c =>
    match u.wordNumber c.1 with
    | some i => m.merge i c.2
    | none => m) u.shadow

/-- The word of a notice that lies at setup word `i`. -/
def Setup.noticeWord (u : Setup) (i address : Nat) (ws : List WriteWord) : Option WriteWord :=
  ((addressed address ws).find? (fun c => u.wordNumber c.1 == some i)).map Prod.snd

/-- A notice enables some byte of setup word `i`. -/
def Setup.writes (u : Setup) (i address : Nat) (ws : List WriteWord) : Bool :=
  match u.noticeWord i address ws with
  | some w => anyEnabled w
  | none => false

/-- The command word is tested after this notice's merge: not while FETCHING (R146), and it must have changed
(R161). -/
def Setup.commandChanged (u : Setup) : Bool :=
  u.part != .fetching && u.shadow.get 2 != u.lastCommand

/-- The notice merged into the shadow (R144); whether a command is then taken is settled by R161. -/
def State.capture (s : State) : State :=
  match s.pass.notice with
  | none => s
  | some n =>
    let setup := { s.setup with shadow := s.setup.capture n.address n.words }
    { s with setup := setup }.setNotice
      { n with captureDue := false, commandDue := n.commandDue && setup.commandChanged }

/-- A notice whose merge into the shadow is still to be made. -/
def State.captureReady (s : State) : Bool :=
  match s.pass.notice with
  | some n => n.captureDue
  | none => false

/-- SETUP_CAPTURE (R144). -/
def execSetupCapture (s : State) : Result := stepWhen (!s.inReset && s.captureReady) State.capture s

/-! ### Clock word (R83) -/

/-- The clock value that a write of the clock word forms (R83). -/
def State.writtenClock (n : Notice) (s : State) : Word :=
  match s.setup.noticeWord 4 n.address n.words with
  | some w => mergeBytes s.lines.clock w
  | none => s.lines.clock

/-- The clock word taken (R83). -/
def State.takeClockWord (s : State) : State :=
  match s.pass.notice with
  | none => s
  | some n => (s.setNotice { n with clockDue := false }).stepClock (s.writtenClock n)

/-- A notice whose clock word is the next delivery. -/
def State.clockReady (s : State) : Bool :=
  match s.pass.notice with
  | some n => n.clockDue && !n.captureDue
  | none => false

/-- CLOCK_WORD_WRITE (R83), once the closes of the last advance have been taken (log entry 12). -/
def execClockWordWrite (s : State) : Result :=
  stepWhen (!s.inReset && s.clockReady && s.closesTaken) State.takeClockWord s

/-! ### Starting an apply (R148 to R150) -/

/-- The part state changed: the real-time group is owed (R145, R167). -/
def State.setPart (p : Part) (s : State) : State :=
  { s with setup := { s.setup with part := p }, alerts := s.alerts.oweRealTime }

/-- An apply starts: the candidate is words 0 to 1351 of the shadow (R148, R149). -/
def State.startApply (s : State) : State :=
  { s with setup := { s.setup with candidate := some (s.setup.shadow.below 1352) } }.setPart
    (.applying .validate)

/-- The generation word of the candidate. -/
def Setup.candidateGeneration (u : Setup) : Word := (u.candidate.getD []).generation

/-- The generation of the active setup. -/
def Setup.generation (u : Setup) : Option Word := u.active.map Image.generation

/-- The generation test, by part state (R148, R150). -/
def State.testGeneration (s : State) : State :=
  match s.setup.part with
  | .fetching => s
  | .unset => s.startApply
  | .active =>
    if s.setup.generation = some s.setup.shadow.generation then s else s.startApply
  | .applying _ =>
    { s with setup := { s.setup with
        pendingApply := s.setup.shadow.generation != s.setup.candidateGeneration } }

/-- The generation word taken. -/
def State.takeGeneration (s : State) : State :=
  match s.pass.notice with
  | none => s
  | some n => (s.setNotice { n with generationDue := false }).testGeneration

/-- A notice whose generation word is the next delivery. -/
def State.generationReady (s : State) : Bool :=
  match s.pass.notice with
  | some n => n.generationDue && !n.captureDue && !n.clockDue
  | none => false

/-- GENERATION_WRITE (R148, R150). -/
def execGenerationWrite (s : State) : Result :=
  stepWhen (!s.inReset && s.generationReady) State.takeGeneration s

/-- The Result Writer's part in a notice (R115). -/
def State.takeConsumer (s : State) : State :=
  match s.pass.notice with
  | none => s
  | some n => (s.setNotice { n with consumerDue := false }).consumerNotice n.address n.words

/-- A notice that touches a consumer index word is still to be examined. -/
def State.consumerReady (s : State) : Bool :=
  match s.pass.notice with
  | some n => n.consumerDue
  | none => false

/-- CONSUMER_INDEX_WRITE (R115). -/
def execConsumerIndexWrite (s : State) : Result :=
  stepWhen (!s.inReset && s.consumerReady) State.takeConsumer s

/-! ### The end of an apply (R150, R156) -/

/-- The waiting command is dealt with first, and then a set pending flag starts a new apply (R150). -/
def State.afterApply (s : State) : State :=
  let s1 := match s.setup.waiting with
    | some (w, arg) => { s with setup := { s.setup with waiting := none } }.dealWith w arg
    | none => s
  if s1.setup.pendingApply then
    { s1 with setup := { s1.setup with pendingApply := false } }.startApply
  else s1

/-- The state an apply started from: ACTIVE where a setup is active, else UNSET (R156). -/
def Setup.resting (u : Setup) : Part := if u.active.isSome then .active else .unset

/-- A failed validation ends the apply (R156). -/
def State.rejectApply (r : Reject) (s : State) : State :=
  let s1 := { s with alerts := (s.alerts.giveApplyResult s.setup.candidateGeneration r.code r.index).latch
                        .setupRejected }
  ({ s1 with setup := { s1.setup with candidate := none } }.setPart s.setup.resting).afterApply

/-- The validation's end: a failure ends the apply, a valid candidate brings the quiesce phase with the Channel
Unit's pause (R151, R156, R157). -/
def State.completeValidation (s : State) : State :=
  match (s.setup.candidate.getD []).validate s.setup.blockAddress with
  | some r => s.rejectApply r
  | none =>
    { s with setup := { s.setup with part := .applying .quiesce },
             channels := { s.channels with pause := true } }

/-- VALIDATION_COMPLETION (R151). -/
def execValidationCompletion (s : State) : Result :=
  stepWhen (s.steady && s.setup.part == .applying .validate && s.closesTaken) State.completeValidation s

/-! ### Quiesce and forced close (R104, R157, R158) -/

/-- A line's parent, or that it has none, as the compare of R104 takes it. -/
def Image.sameGroupTiming (old new : Image) (n : Fin 16) : Bool :=
  !(old.isHead n || new.isHead n) ||
  (old.binLength n == new.binLength n && old.epochLength n == new.epochLength n)

/-- A line changes between two setups (R104). -/
def lineChanges (old new : Image) (n : Fin 16) : Bool :=
  old.kind n != new.kind n || old.parent n != new.parent n || old.ringBase n != new.ringBase n ||
  old.ringSize n != new.ringSize n || !old.sameGroupTiming new n ||
  ((old.kind n == .furnace || new.kind n == .furnace) && old.children n != new.children n)

/-- A leaving-ring line (section 8.6, R157). -/
def leavingRing (old new : Image) (n : Fin 16) : Bool :=
  old.kind n != .none &&
  (new.kind n == .none || old.ringBase n != new.ringBase n || old.ringSize n != new.ringSize n)

/-- The candidate under validation or waiting for installation. -/
def State.candidateImage (s : State) : Image := s.setup.candidate.getD []

/-- A line's ring restarts at the installation (R119). -/
def ringRestarts (old new : Image) (n : Fin 16) : Bool :=
  new.kind n != .none &&
  (old.kind n == .none || old.ringBase n != new.ringBase n || old.ringSize n != new.ringSize n)

/-- No record of a leaving-ring line, nor of any other line whose ring restarts, in the writer queue, and no
snapshot of a leaving-ring line on the hand-over list (R110, R120, R157, R158). That the phases wait for a record
of a line that was NONE and gets a ring, which R157 does not name, is deduced from R110 and R120 (log entry 33). -/
def State.ringsClear (s : State) : Bool :=
  s.writer.queue.all (fun r =>
    !(leavingRing s.cfg s.candidateImage r.line || ringRestarts s.cfg s.candidateImage r.line)) &&
  s.lines.handOver.all (fun c => !leavingRing s.cfg s.candidateImage c.2)

/-- The quiesce conditions (R157). -/
def State.quiesced (s : State) : Bool :=
  s.channels.inHand.isNone && s.ringsClear &&
  (!s.baseChanges || (s.tally.queue.isEmpty && s.tally.reservation.isNone))

/-- The apply forced close: job closes of changed FORMING lines whose kind changes, then the groups of the old
setup with a changed member, each with its epoch, in increasing head number (R104). -/
def Books.forcedClose (old new : Image) (x : Books) : Books :=
  let jobs := allLines.filter (fun n => old.kind n == .forming && new.kind n != .forming)
  let heads := allLines.filter (fun h => old.isHead h && (old.members h).any (lineChanges old new))
  heads.foldl (fun x h => x.closeGroup old h true) (jobs.foldl (fun x n => x.closeJob n 0) x)

/-- The quiesce phase met: the forced close, then the drain (R158). -/
def State.forceClose (s : State) : State :=
  let s1 := s.withBooks (s.books.forcedClose s.cfg s.candidateImage)
  { s1 with setup := { s1.setup with part := .applying .drain } }

/-- QUIESCE_MET (R157, R158). -/
def execQuiesceMet (s : State) : Result :=
  stepWhen (s.steady && s.setup.part == .applying .quiesce && s.closesTaken && s.quiesced)
    State.forceClose s

/-! ### Installation (R159) -/

/-- The windows compared one by one: a changed descriptor loses its partial record, timer and inject flag
(R40). -/
def Intake.installed (old new : Image) (hadSetup : Bool) (i : Intake) : Intake :=
  { i with windows := tabulate 4 (fun w =>
      if hadSetup && old.window w == new.window w then i.windows[w] else .empty) }

/-- The hold request tested against the marks in force (R36). -/
def State.testMarks (s : State) : State :=
  if s.cfg.highWater ≤ s.intake.queue.length then
    { s with intake := { s.intake with holdRequest := true } }
  else if s.intake.queue.length ≤ s.cfg.lowWater then s.dropRequest
  else s

/-- A burst that waits outside every enabled window of the new setup is to be accepted (R7). -/
def State.retestHold (s : State) : State :=
  match s.pass.heldWrite with
  | some (address, _) =>
    if (s.cfg.windowAt address).isNone then { s with pass := { s.pass with releaseDue := true } } else s
  | none => s

/-- The identity of a channel entry is unchanged (R78). -/
def sameIdentity (a b : ChannelSetup) : Bool :=
  a.channel == b.channel && a.line == b.line && a.kind == b.kind && a.width == b.width &&
  (a.kind == .energy || a.role == b.role)

/-- A channel entry compared with the one it replaces (R78). -/
def Meter.installed (old new : ChannelSetup) (m : Meter) : Meter :=
  match old.enabled, new.enabled with
  | false, false => m
  | false, true => m.fresh
  | true, false => m.retire
  | true, true => if sameIdentity old new then m else m.fresh

/-- The channel table after the installation (R78). -/
def Channels.installed (old new : Image) (c : Channels) : Vector Meter 256 :=
  tabulate 256 (fun e => c.meters[e].installed (old.channel e) (new.channel e))

/-- A line whose kind becomes NONE (R105). -/
def Line.vacated (now : Nat) (l : Line) : Line :=
  { l with state := .idle, bin := .opened now .clear, epoch := .opened now, job := .opened now,
           summarySaturation := false, jobCode := 0, unitWeight := 0, timer := none,
           changeoverPending := false, pulledResidue := 0, packedResidue := 0 }

/-- A line whose kind becomes FURNACE or FORMING from another kind (R105). -/
def Line.founded (oldKind : LineKind) (now : Nat) (l : Line) : Line :=
  { l with state := .running, bin := .opened now .clear, epoch := .opened now, job := .opened now,
           summarySaturation := false, jobCode := 0, unitWeight := 0, timer := none,
           changeoverPending := false,
           pulledResidue := if oldKind = .none then 0 else l.pulledResidue,
           packedResidue := if oldKind = .none then 0 else l.packedResidue }

/-- A line after the installation (R105). -/
def Line.installed (old new : LineKind) (now : Nat) (l : Line) : Line :=
  if old = new then l
  else if new = .none then l.vacated now
  else l.founded old now

/-- A group keeps its boundaries: its head was a head before, and no member changed (R105). -/
def groupKept (old new : Image) (h : Fin 16) : Bool :=
  old.isHead h && (new.members h).all (fun n => !lineChanges old new n)

/-- The Line Unit after the installation (R105). -/
def LineUnit.installed (old new : Image) (u : LineUnit) : LineUnit :=
  let now := u.clock.toNat
  { u with
    lines := tabulate 16 (fun n => u.lines[n].installed (old.kind n) (new.kind n) now),
    bounds := tabulate 16 (fun h =>
      if new.isHead h then (if groupKept old new h then u.bounds[h] else some (new.boundAt h now))
      else none) }

/-- A ring that restarts (R119). -/
def Ring.restarted : Ring := { Ring.cleared with initOwed := true }

/-- A ring after the installation: it leaves force, restarts, or is kept (R119, R120). -/
def Ring.installed (old new : Image) (n : Fin 16) (r : Ring) : Ring :=
  if new.kind n = .none then .cleared
  else if ringRestarts old new n then .restarted
  else r

/-- The Result Writer after the installation (R119, R120). -/
def Writer.installed (old new : Image) (w : Writer) : Writer :=
  { w with rings := tabulate 16 (fun n => w.rings[n].installed old new n) }

/-- A select compared as a set of classes (R181, R185). -/
def sameSelect (old new : Image) (i : Fin 4) : Bool :=
  (old.firstClass i == new.firstClass i && old.secondClass i == new.secondClass i) ||
  (old.firstClass i == new.secondClass i && old.secondClass i == new.firstClass i)

/-- The Alert Unit after the installation: a counter whose select changes loses its count; the report timer
restarts where the interval is new, a due expiry that has not been taken included (R179, R181; DESIGN CHOICE, log
entry 35). -/
def Alerts.installed (old new : Image) (hadSetup : Bool) (a : Alerts) : Alerts :=
  { a with
    counters := tabulate 4 (fun i =>
      if hadSetup && sameSelect old new i then a.counters[i] else { a.counters[i] with count := 0 }),
    reportTimer :=
      if hadSetup && old.reportInterval == new.reportInterval then a.reportTimer
      else some new.reportInterval }

/-- Every unit takes its part of the installation of `new` in one event (R159). `old` is the setup being
replaced, empty where there was none. -/
def State.installUnits (old new : Image) (hadSetup : Bool) (s : State) : State :=
  let s1 := { s with
    setup := { s.setup with active := some new, candidate := none, part := .active },
    intake := s.intake.installed old new hadSetup,
    lines := s.lines.installed old new,
    writer := s.writer.installed old new,
    alerts := s.alerts.installed old new hadSetup,
    channels := { s.channels with pause := false } }
  (s1.retestHold.testMarks).withMeters (s1.channels.installed old new)

/-- The result of a valid installation: generation, code 0, SETUP_APPLIED, and the changed part state
(R145, R160). -/
def State.announceInstalled (new : Image) (s : State) : State :=
  { s with alerts := ((s.alerts.giveApplyResult new.generation 0 0).oweRealTime).latch .setupApplied }

/-- The candidate installed, and the apply resumed (R159, R160). -/
def State.install (s : State) : State :=
  let new := s.candidateImage
  ((s.installUnits s.cfg new s.setup.active.isSome).announceInstalled new).afterApply

/-- INSTALLATION (R158, R159, R160): the drain is met. -/
def execInstallation (s : State) : Result :=
  stepWhen (s.steady && s.setup.part == .applying .drain && s.closesTaken && s.ringsClear) State.install s

/-! ### Fetch after hard reset (R146, R147, R189) -/

/-- The end of a fetch: every group becomes owed, and the command word in the shadow is taken as already seen
(R147, R173). -/
def State.endFetch (s : State) : State :=
  { s with setup := { s.setup with lastCommand := s.shadowCommand },
           alerts := { s.alerts with owed := .everything } }

/-- The 16 words of fetch burst `k` put into the shadow whole (R146). -/
def Image.fill (m : Image) (first : Nat) (ws : List Word) : Image :=
  (ws.zipIdx first).foldl (fun m c => m.set c.2 c.1) m

/-- The answer to a fetch read (R146, R147). -/
def State.answerFetch (answer : ReadAnswer 16) (s : State) : State :=
  let s := s.freePort
  let k := s.setup.fetchPosition
  match answer with
  | .error =>
    let s1 := { s with
      setup := { s.setup with part := .unset, candidate := none },
      alerts := ((s.alerts.giveApplyResult 0 9 k).latch .memoryFault).latch .setupRejected }
    s1.endFetch
  | .ok d =>
    let shadow := s.setup.shadow.fill (16 * k) d.toList
    { s with setup := { s.setup with
        shadow := shadow, fetchPosition := k + 1,
        candidate := if k + 1 = 128 then some (shadow.below 1352) else s.setup.candidate } }

/-- The downstream port carries a fetch read. -/
def Port.isFetch : Port → Bool
  | .internal .fetch _ => true
  | _ => false

/-- FETCH_READ_RESPONSE (R146, R147). -/
def execFetchReadResponse (answer : ReadAnswer 16) (s : State) : Result :=
  stepWhen (s.steady && s.setup.part == .fetching && s.pass.port.isFetch) (State.answerFetch answer) s

/-- The end of a fetch whose 128 bursts were answered OK: the candidate is installed against no setup, or
rejected (R147); a generation written meanwhile then starts an apply (R189). -/
def State.completeFetch (s : State) : State :=
  let new := s.candidateImage
  let s1 := match new.validate s.setup.blockAddress with
    | some r =>
      { s with setup := { s.setup with part := .unset, candidate := none },
               alerts := (s.alerts.giveApplyResult new.generation r.code r.index).latch .setupRejected }
    | none => (s.installUnits [] new false).announceInstalled new
  let s2 := s1.endFetch
  if s.setup.shadow.generation = new.generation then s2 else s2.startApply

/-- FETCH_VALIDATION_COMPLETION (R147, R189). -/
def execFetchValidationCompletion (s : State) : Result :=
  stepWhen (s.steady && s.setup.part == .fetching && s.setup.fetchPosition == 128 &&
    s.setup.candidate.isSome) State.completeFetch s

end Sys2Proof.Machine
end

