-- ==== Sys2Proof/Machine/Status.lean ====
section
/-! DEFINITION. The status block (sections 9.3, 9.4, 9.6, 10.5): mirror writes, read clearing, the report timer. -/

namespace Sys2Proof.Machine

/-! ### The words of each group (R169, R186) -/

/-- The result encoding (section 10.5). -/
def CommandOutcome.code : CommandOutcome → Nat
  | .none => 0 | .done => 1 | .refusedUnset => 2 | .badArgument => 3

/-- The last-reason encoding (section 10.5). -/
def LostReason.code : LostReason → Nat
  | .none => 0 | .queueFull => 1 | .listFull => 2

/-- The overrun count of a line's ring as the report group writes it: 0 for a line of kind NONE and while no
setup is installed (R179, R186). -/
def State.reportedOverrun (s : State) (n : Fin 16) : Nat :=
  if s.cfg.ringInForce n then (s.writer.rings[n]).overrun else 0

/-- The word of the report group that holds lines 2k and 2k + 1 (section 10.5). -/
def State.overrunWord (s : State) (k : Nat) : Word :=
  word (s.reportedOverrun (lineOf (2 * k)) + 2 ^ 16 * s.reportedOverrun (lineOf (2 * k + 1)))

/-- The words of a group as they stand (R171, R186, section 10.5). -/
def State.groupWords (s : State) : Group → List Word
  | .latched => [s.alerts.latched.zeroExtend 32]
  | .realTime => [s.realTimeWord]
  | .applyResult =>
    [s.alerts.applyResult.generation,
     word (s.alerts.applyResult.index * 2 ^ 8 + s.alerts.applyResult.code)]
  | .commandResult => [s.alerts.commandResult.word, word s.alerts.commandResult.result.code]
  | .counters => (List.finRange 4).map (fun i => word (s.alerts.counters[i]).latch)
  | .lostTally =>
    splitWords s.tally.lost.energy ++
    [word s.tally.lost.pulled, word s.tally.lost.packed, word s.tally.lost.count,
     word s.tally.lost.reason.code]
  | .report => [s.intake.accepted, s.lines.clock] ++ (List.range 8).map s.overrunWord

/-- The number of a group's first status word (R169). -/
def Group.first : Group → Nat
  | .latched => 0 | .realTime => 1 | .applyResult => 2 | .commandResult => 4 | .counters => 6
  | .lostTally => 10 | .report => 16

/-- The mirror write of a group: every word of it, all byte enables (R171). -/
def State.mirrorTxn (s : State) (g : Group) : Txn :=
  .write (s.setup.statusAddress + 4 * g.first) ((s.groupWords g).map fullWord)

/-- The grant of a mirror write: the group's owed flag clears, and a latched-group write clears the read-hold
flag (R171, R175). -/
def Alerts.mirrorGranted (g : Group) (a : Alerts) : Alerts :=
  { a with owed := a.owed.without g, readHold := if g = .latched then false else a.readHold }

/-- The downstream port carries a mirror write. -/
def Port.isMirror : Port → Bool
  | .internal (.mirror _) _ => true
  | _ => false

/-- The answer to a mirror write: it is no longer in hand; an ERROR latches MEMORY_FAULT and is not retried
(R171, R172). -/
def State.answerMirror (answer : Answer) (s : State) : State :=
  let s1 := s.freePort
  let s2 := { s1 with alerts := { s1.alerts with mirror := none } }
  match answer with
  | .ok => s2
  | .error => s2.latch .memoryFault

/-- MIRROR_WRITE_RESPONSE (R171, R172). The next owed group is requested at the end of the step. -/
def execMirrorWriteResponse (answer : Answer) (s : State) : Result :=
  stepWhen (s.steady && s.pass.port.isMirror) (State.answerMirror answer) s

/-! ### Clearing by read (R174) -/

/-- The read clearing: exactly the bits set in the returned word are cleared; the latched group becomes owed and
the read-hold flag is set. A word with none of bits 0 to 21 set does nothing (R174). -/
def Alerts.clearRead (w : Word) (a : Alerts) : Alerts :=
  let returned : BitVec 22 := w.truncate 22
  if returned = 0 then a
  else { a with latched := a.latched &&& ~~~returned, owed := { a.owed with latched := true },
                readHold := true }

/-- The observation taken; none is acted on while the part is FETCHING (R174). -/
def State.takeObservation (s : State) : State :=
  match s.pass.observation with
  | none => s
  | some w =>
    let s1 := { s with pass := { s.pass with observation := none } }
    if s.setup.part = .fetching then s1 else { s1 with alerts := s1.alerts.clearRead w }

/-- LATCHED_ALERT_READ (R174). -/
def execLatchedAlertRead (s : State) : Result :=
  stepWhen (s.steady && s.pass.observation.isSome) State.takeObservation s

/-! ### The report timer (R179) -/

/-- The expiry: automatic counters transferred, the report group owed, the timer restarted (R179). -/
def State.expireReport (s : State) : State :=
  let a := s.alerts.transfer s.cfg.automatic
  { s with alerts := { a with owed := { a.owed with report := true },
                              reportTimer := some s.cfg.reportInterval } }

/-- REPORT_TIMER_EXPIRY (R179). -/
def execReportTimerExpiry (s : State) : Result :=
  stepWhen (s.steady && s.alerts.reportTimer == some 0) State.expireReport s

end Sys2Proof.Machine
end

