-- ==== Sys2Proof/WellFormed.lean ====
section
/-! DEFINITION. Which commands the two ports can carry: bursts of 1 to 16 words at a word address. -/

namespace Sys2Proof

/-- A burst the upstream port can carry: `ULEN` gives 1 to 16 words, and `UA[31:2]` gives a word address
(section 1.8; 00_scope.md, Burst). -/
def burstWellFormed (address : Word) (length : Nat) : Bool :=
  decide (address.toNat % 4 = 0) && decide (1 ≤ length) && decide (length ≤ 16)

/-- A command that the part's pins can carry. Every step without a burst is well formed by its type. -/
def Instr.wellFormed : Instr → Bool
  | .upstreamWrite address words => burstWellFormed address words.length
  | .upstreamRead address enables => burstWellFormed address enables.length
  | .passthroughResponse (.ok data) => decide (data.length ≤ 16)
  | .passthroughResponse .error => true
  | .resetAssert | .resetRelease _ | .tickPulse | .clockAdvance | .assemblyTimeout _
  | .staleExpiry _ | .changeoverTimerExpiry _ | .binBoundaryExpiry | .reportTimerExpiry
  | .holdLimitExpiry | .backoffExpiry | .holdRelease | .readHoldRelease | .arbiterDecision
  | .setupCapture | .clockWordWrite | .generationWrite | .consumerIndexWrite | .latchedAlertRead
  | .noCommand | .closeBins | .restart | .reprime | .transferCounters | .injectCheckFault
  | .undefinedCommand | .recordTake | .handOver | .tallyMissHandOver | .takeIntoHand
  | .recordWriteResponse _ | .indexWriteResponse _ | .initialisingWriteResponse _
  | .updateIntoHand | .reserveReadResponse _ | .conditionalWriteResponse _
  | .fetchReadResponse _ | .fetchValidationCompletion | .mirrorWriteResponse _
  | .validationCompletion | .quiesceMet | .installation | .discardedDownstreamResponse => true

end Sys2Proof
end

