-- ==== Sys2Proof/Machine/MemoryPath.lean ====
section
/-! DEFINITION. The Pass Controller (chapters 1 and 11.1): reset, acceptance, hold and read hold, the arbiter, the
grants with what happens at them, passthrough responses. -/

namespace Sys2Proof.Machine

/-! ### RESET (R17, R187) -/

/-- A transaction already granted is left to end at the memory, its response discarded (R17). -/
def Port.orphaned : Port → Port
  | .free => .free
  | .passthrough => .orphan
  | .internal _ _ => .orphan
  | .orphan => .orphan

/-- RESET asserted: every unit in its hard-reset values, UREADY withheld until the release (R17, R187). The
placement is sampled at the release; until then the last one stands. -/
def execResetAssert (s : State) : Result :=
  .next (State.hardReset s.pending true s.pass.port.orphaned s.setup.base s.tally.draws)

/-- RESET released: SETUP_BASE sampled, hard-reset values taken, FETCHING entered, with fetch burst 0 requested
(R19, R146, R187). -/
def execResetRelease (straps : BitVec 8) (s : State) : Result :=
  stepWhen s.inReset
    (fun s => State.hardReset s.pending false s.pass.port.orphaned straps s.tally.draws) s

/-- The UREADY pin: withheld under RESET and while the port cannot take a transaction in (R1, R6, R10, R187). -/
def State.uready (s : State) : Bool := !s.inReset && s.pass.open

/-! ### Acceptance (R1, R2, R6, R10) -/

/-- The upstream port is ready for a transaction. -/
def State.portOpen (s : State) : Bool := s.steady && s.pass.open

/-- The four conditions of the hold test (R6). -/
def State.holds (s : State) (address : Nat) : Bool :=
  s.setup.part.working && (s.cfg.windowAt address).isSome && s.intake.holdRequest && !s.pass.spilling

/-- A malformed burst is answered with ERROR as soon as it is accepted (R2). -/
def State.answerMalformed (s : State) : State :=
  { s with pass := { s.pass with lastAnswer := some .error } }

/-- The burst waits: hold state, timer at the hold limit, HOLDING rises (R6). -/
def State.enterHold (address : Nat) (words : List WriteWord) (s : State) : State :=
  { s with pass := { s.pass with heldWrite := some (address, words), holdTimer := some s.cfg.holdLimit,
                                 releaseDue := false },
           alerts := s.alerts.rise .holding }

/-- A write burst presented to an empty slot (R2, R6, R12). -/
def State.presentWrite (address : Nat) (words : List WriteWord) (s : State) : State :=
  if malformed address words.length then s.answerMalformed
  else if s.holds address then s.enterHold address words
  else s.acceptWrite address words

/-- UPSTREAM_WRITE (R6). A burst the port cannot carry is no transaction (log entry 9). -/
def execUpstreamWrite (address : Word) (words : List WriteWord) (s : State) : Result :=
  if burstWellFormed address words.length then
    stepWhen s.portOpen (State.presentWrite address.toNat words) s
  else .fault .illFormedBurst

/-- A read burst includes the latched-alert word, word 0 of the status block (R10). -/
def State.readsLatchedWord (s : State) (address length : Nat) : Bool :=
  decide (address ≤ s.setup.statusAddress) && decide (s.setup.statusAddress < address + 4 * length)

/-- A read takes the slot. -/
def State.acceptRead (address : Nat) (enables : List (BitVec 4)) (s : State) : State :=
  { s with pass := { s.pass with slot := some (.read address enables) } }

/-- A read burst presented to an empty slot (R2, R10). -/
def State.presentRead (address : Nat) (enables : List (BitVec 4)) (s : State) : State :=
  if malformed address enables.length then s.answerMalformed
  else if s.alerts.readHold && s.readsLatchedWord address enables.length then
    { s with pass := { s.pass with heldRead := some (address, enables) } }
  else s.acceptRead address enables

/-- UPSTREAM_READ (R10). -/
def execUpstreamRead (address : Word) (enables : List (BitVec 4)) (s : State) : Result :=
  if burstWellFormed address enables.length then
    stepWhen s.portOpen (State.presentRead address.toNat enables) s
  else .fault .illFormedBurst

/-- The waiting burst accepted and the hold ended (R7). -/
def State.releaseHold (s : State) : State :=
  match s.pass.heldWrite with
  | none => s
  | some (address, words) => s.leaveHold.acceptWrite address words

/-- HOLD_RELEASE (R7): the hold request has dropped, or an installation has left the burst outside every
window. -/
def execHoldRelease (s : State) : Result :=
  stepWhen (s.steady && s.pass.heldWrite.isSome && s.pass.releaseDue) State.releaseHold s

/-- The waiting read accepted (R10). -/
def State.releaseRead (s : State) : State :=
  match s.pass.heldRead with
  | none => s
  | some (address, enables) =>
    { s with pass := { s.pass with heldRead := none } }.acceptRead address enables

/-- READ_HOLD_RELEASE (R10): the read-hold flag is clear. -/
def execReadHoldRelease (s : State) : Result :=
  stepWhen (s.steady && s.pass.heldRead.isSome && !s.alerts.readHold) State.releaseRead s

/-! ### The grant of a passthrough transaction (R3) -/

/-- A notice writes at least one byte of the entry's 32 bytes (R130). -/
def noticeTouches (base address : Nat) (ws : List WriteWord) : Bool :=
  (addressed address ws).any (fun c => decide (base ≤ c.1) && decide (c.1 < base + 32) && anyEnabled c.2)

/-- A notice breaks the reservation it touches (R130). -/
def Tally.breakReservation (m : Image) (address : Nat) (ws : List WriteWord) (t : Tally) : Tally :=
  match t.reservation with
  | some r =>
    if noticeTouches (m.entryAddress r.entry) address ws then
      { t with reservation := some { r with intact := false } }
    else t
  | none => t

/-- The deliveries that a notice owes to the Setup Unit and the Result Writer (R115, R144, R188). -/
def State.noticeOf (address : Nat) (ws : List WriteWord) (s : State) : Notice :=
  { address := address, words := ws,
    captureDue := (addressed address ws).any (fun c => (s.setup.wordNumber c.1).isSome),
    clockDue := s.setup.writes 4 address ws, generationDue := s.setup.writes 1 address ws,
    commandDue := s.setup.writes 2 address ws, consumerDue := s.cfg.touchesConsumer address ws }

/-- One match delivered. The hand-overs that the writer queue has room for come first, so that the job closes of
two JOB_MARKs give a record each, also where one burst carries both (R50, R98; log entry 12). -/
def State.deliverMatch (m : Image) (n : Fin 16) (e : LineEvent) (s : State) : State :=
  let u := s.handOvers 16
  u.withBooks (u.books.deliver m n e)

/-- The matchers' part in a write notice: each match delivered in increasing matcher number (R50). -/
def State.matchNotice (m : Image) (address : Nat) (ws : List WriteWord) (s : State) : State :=
  (List.finRange 16).foldl (fun s i =>
    if (m.matcher i).matched address ws then
      match (m.matcher i).event ws with
      | some e => s.deliverMatch m (m.matcher i).target e
      | none => s
    else s) s

/-- A write notice (R3): the Intake Unit, the matchers and the reservation act at the grant, and the deliveries
to the Setup Unit and the Result Writer are owed. -/
def State.writeNotice (address : Nat) (ws : List WriteWord) (s : State) : State :=
  let s1 := if s.setup.part.working then
      s.withDesk (s.desk.notice s.cfg s.pass.spilling address ws) else s
  let s2 := if s.setup.part.working then s1.matchNotice s.cfg address ws else s1
  let s3 := { s2 with tally := s2.tally.breakReservation s.cfg address ws }
  s3.setNotice (s.noticeOf address ws)

/-- Passthrough granted (R1, R3). -/
def State.grantPassthrough (s : State) : State :=
  let s1 := { s with pass := { s.pass with port := .passthrough } }
  match s.pass.slot with
  | some (.write address ws) => s1.writeNotice address ws
  | some (.read _ _) => s1
  | none => s

/-! ### Requests and grants of the internal clients (R13 to R16) -/

/-- Fetch burst k: one 16-word read (R146). -/
def State.fetchTxn (s : State) : Txn :=
  .read (s.setup.blockAddress + 64 * s.setup.fetchPosition) (List.replicate 16 0xF#4)

/-- The Setup Unit requests a fetch burst (R146). -/
def State.fetchRequest (s : State) : Bool :=
  s.setup.part == .fetching && decide (s.setup.fetchPosition < 128)

/-- The address of the entry of the update in hand (R128). -/
def State.entryTxnAddress (u : Update) (s : State) : Nat := s.cfg.entryAddress u.entry

/-- What the Tally Engine requests: a reserve-read in READ_WAIT, a conditional write in WRITE_WAIT until it is
granted or withdrawn (R128, R129). -/
def State.tallyRequest (s : State) : Option Client :=
  match s.tally.state, s.tally.queue with
  | .readWait, _ :: _ => some .reserveRead
  | .writeWait, _ :: _ => if s.tally.reservation.isSome then some .conditionalWrite else none
  | _, _ => none

/-- The reserve-read granted: the reservation is set on the entry, and the engine is in READ_OUT (R128). -/
def State.grantReserveRead (u : Update) (s : State) : State :=
  { s with
    pass := { s.pass with port := .internal .reserveRead
                            (.read (s.entryTxnAddress u) (List.replicate 8 0xF#4)) },
    tally := { s.tally with state := .readOut, reservation := some { entry := u.entry, intact := true } } }

/-- The conditional write granted: the reservation ends (R131). -/
def State.grantConditionalWrite (u : Update) (s : State) : State :=
  { s with
    pass := { s.pass with port := .internal .conditionalWrite
                            (.write (s.entryTxnAddress u) ((s.tally.computed.getD []).map fullWord)) },
    tally := { s.tally with reservation := none } }

/-- An initialising write granted: no longer owed, and the shadow consumer index is 0 again (R119). -/
def Writer.initGranted (n : Fin 16) (w : Writer) : Writer :=
  w.setRing n { w.rings[n] with initOwed := false, shadow := 0 }

/-- A request of the Result Writer granted (R113, R114, R119). -/
def State.grantWriter (client : Client) (txn : Txn) (s : State) : State :=
  { s with
    pass := { s.pass with port := .internal client txn, turn := .tallyEngine },
    writer := match client with
      | .initialisingWrite n => s.writer.initGranted n
      | _ => s.writer }

/-- The Tally Engine granted; the turn passes to the Result Writer (R14). -/
def State.grantTally (client : Client) (s : State) : State :=
  match s.tally.queue with
  | [] => s
  | u :: _ =>
    let s1 := if client = .reserveRead then s.grantReserveRead u else s.grantConditionalWrite u
    { s1 with pass := { s1.pass with turn := .resultWriter } }

/-- The status mirror granted (R171). -/
def State.grantMirror (g : Group) (s : State) : State :=
  { s with pass := { s.pass with port := .internal (.mirror g) (s.mirrorTxn g) },
           alerts := s.alerts.mirrorGranted g }

/-- The fetch granted (R146). -/
def State.grantFetch (s : State) : State :=
  { s with pass := { s.pass with port := .internal .fetch s.fetchTxn } }

/-! ### The decision (R13, R14, R15) -/

/-- What the arbiter can choose. -/
inductive Choice where
  | passthrough
  | fetch
  | mirror (group : Group)
  | tally (client : Client)
  | writer (client : Client) (txn : Txn)
  deriving DecidableEq, Repr

/-- The internal client that R14 chooses among the requests present. `tally` is the Tally Engine's request where
it takes part in the decision. -/
def State.internalChoice (tally : Option Client) (s : State) : Option Choice :=
  if s.fetchRequest then some .fetch
  else match s.alerts.mirror with
    | some g => some (.mirror g)
    | none =>
      match tally, s.writerRequest, s.pass.turn with
      | some c, some _, .tallyEngine => some (.tally c)
      | some _, some (c, t), .resultWriter => some (.writer c t)
      | some c, none, _ => some (.tally c)
      | none, some (c, t), _ => some (.writer c t)
      | none, none, _ => none

/-- The choice of R13, and the run count afterwards. -/
def State.choose (tally : Option Client) (s : State) : Option (Choice × Nat) :=
  match s.pass.slot.isSome, s.internalChoice tally with
  | true, none => some (.passthrough, 0)
  | true, some c => if s.pass.runCount < 4 then some (.passthrough, s.pass.runCount + 1) else some (c, 0)
  | false, some c => some (c, 0)
  | false, none => none

/-- The grant of a choice. -/
def State.grant (c : Choice) (s : State) : State :=
  match c with
  | .passthrough => s.grantPassthrough
  | .fetch => s.grantFetch
  | .mirror g => s.grantMirror g
  | .tally client => s.grantTally client
  | .writer client txn => s.grantWriter client txn

/-- The run count after a decision. -/
def State.setRunCount (n : Nat) (s : State) : State := { s with pass := { s.pass with runCount := n } }

/-- A choice granted, with its run count; with no request the port stays free. -/
def State.decideAmong (tally : Option Client) (s : State) : State :=
  match s.choose tally with
  | some (c, n) => (s.setRunCount n).grant c
  | none => s

/-- The decision would grant a conditional write whose reservation has been broken (R15). -/
def State.withdraws (s : State) : Bool :=
  match s.choose s.tallyRequest with
  | some (.tally .conditionalWrite, _) =>
    match s.tally.reservation with
    | some r => !r.intact
    | none => false
  | _ => false

/-- The decision of the arbiter (R13, R14). A conditional write whose reservation is broken is withdrawn, a loss
is returned, and the decision is taken again at once with the requests that remain (R15). -/
def State.arbitrate (s : State) : State :=
  if s.withdraws then (s.withLedger (s.ledger.loss s.cfg false)).decideAmong none
  else s.decideAmong s.tallyRequest

/-- ARBITER_DECISION (R13): the port is free and at least one request is present; with none, nothing is
granted. -/
def execArbiterDecision (s : State) : Result :=
  stepWhen (s.steady && s.pass.port == .free) State.arbitrate s

/-! ### Responses (R1, R4, R17) -/

/-- Word 0 of the status block among the words that a read returned (R4, R174). -/
def State.returnedLatchedWord (address : Nat) (data : List Word) (s : State) : Option Word :=
  if s.readsLatchedWord address data.length then data[(s.setup.statusAddress - address) / 4]? else none

/-- The answer fits the transaction in the slot: an OK read carries one word per word of the burst. -/
def Txn.fits : Txn → PassAnswer → Bool
  | .read _ enables, .ok data => data.length == enables.length
  | .write _ _, .ok data => data.isEmpty
  | _, .error => true

/-- The memory's response is returned upstream unchanged and the slot empties; an OK read that includes the
latched-alert word leaves an observation for the Alert Unit (R1, R4, R5). -/
def State.answerPassthrough (answer : PassAnswer) (s : State) : State :=
  { s with pass := { s.pass with
      slot := none, port := .free, lastAnswer := some answer,
      observation := match s.pass.slot, answer with
        | some (.read address _), .ok data => s.returnedLatchedWord address data
        | _, _ => none } }

/-- The slot's transaction is the one that the port carries, and the answer fits it. -/
def State.passthroughAnswered (answer : PassAnswer) (s : State) : Bool :=
  s.pass.port == .passthrough &&
  match s.pass.slot with
  | some t => t.fits answer
  | none => false

/-- PASSTHROUGH_RESPONSE (R1, R4). -/
def execPassthroughResponse (answer : PassAnswer) (s : State) : Result :=
  stepWhen (s.steady && s.passthroughAnswered answer) (State.answerPassthrough answer) s

/-- DISCARDED_DOWNSTREAM_RESPONSE (R17): the memory ends a transaction granted before a hard reset, and the port
becomes free. It may come while RESET is still asserted. -/
def execDiscardedDownstreamResponse (s : State) : Result :=
  stepWhen (s.pass.port == .orphan) State.freePort s

end Sys2Proof.Machine
end

