-- ==== Sys2Proof/Machine/Dispatch.lean ====
section
/-! DEFINITION. exec: one arm per constructor of Instr, one meaning per arm. -/

namespace Sys2Proof.Machine

def exec (i : Instr) (s : State) : Host.Outcome State Fault Refusal :=
  match i with
  | .resetAssert => Sys2Proof.Machine.execResetAssert s
  | .resetRelease straps => Sys2Proof.Machine.execResetRelease straps s
  | .tickPulse => Sys2Proof.Machine.execTickPulse s
  | .clockAdvance => Sys2Proof.Machine.execClockAdvance s
  | .assemblyTimeout window => Sys2Proof.Machine.execAssemblyTimeout window s
  | .staleExpiry entry => Sys2Proof.Machine.execStaleExpiry entry s
  | .changeoverTimerExpiry line => Sys2Proof.Machine.execChangeoverTimerExpiry line s
  | .binBoundaryExpiry => Sys2Proof.Machine.execBinBoundaryExpiry s
  | .reportTimerExpiry => Sys2Proof.Machine.execReportTimerExpiry s
  | .holdLimitExpiry => Sys2Proof.Machine.execHoldLimitExpiry s
  | .backoffExpiry => Sys2Proof.Machine.execBackoffExpiry s
  | .upstreamWrite address words => Sys2Proof.Machine.execUpstreamWrite address words s
  | .upstreamRead address enables => Sys2Proof.Machine.execUpstreamRead address enables s
  | .holdRelease => Sys2Proof.Machine.execHoldRelease s
  | .readHoldRelease => Sys2Proof.Machine.execReadHoldRelease s
  | .arbiterDecision => Sys2Proof.Machine.execArbiterDecision s
  | .setupCapture => Sys2Proof.Machine.execSetupCapture s
  | .clockWordWrite => Sys2Proof.Machine.execClockWordWrite s
  | .generationWrite => Sys2Proof.Machine.execGenerationWrite s
  | .consumerIndexWrite => Sys2Proof.Machine.execConsumerIndexWrite s
  | .latchedAlertRead => Sys2Proof.Machine.execLatchedAlertRead s
  | .noCommand => Sys2Proof.Machine.execNoCommand s
  | .closeBins => Sys2Proof.Machine.execCloseBins s
  | .restart => Sys2Proof.Machine.execRestart s
  | .reprime => Sys2Proof.Machine.execReprime s
  | .transferCounters => Sys2Proof.Machine.execTransferCounters s
  | .injectCheckFault => Sys2Proof.Machine.execInjectCheckFault s
  | .undefinedCommand => Sys2Proof.Machine.execUndefinedCommand s
  | .passthroughResponse answer => Sys2Proof.Machine.execPassthroughResponse answer s
  | .recordTake => Sys2Proof.Machine.execRecordTake s
  | .handOver => Sys2Proof.Machine.execHandOver s
  | .tallyMissHandOver => Sys2Proof.Machine.execTallyMissHandOver s
  | .takeIntoHand => Sys2Proof.Machine.execTakeIntoHand s
  | .recordWriteResponse answer => Sys2Proof.Machine.execRecordWriteResponse answer s
  | .indexWriteResponse answer => Sys2Proof.Machine.execIndexWriteResponse answer s
  | .initialisingWriteResponse answer => Sys2Proof.Machine.execInitialisingWriteResponse answer s
  | .updateIntoHand => Sys2Proof.Machine.execUpdateIntoHand s
  | .reserveReadResponse answer => Sys2Proof.Machine.execReserveReadResponse answer s
  | .conditionalWriteResponse answer => Sys2Proof.Machine.execConditionalWriteResponse answer s
  | .fetchReadResponse answer => Sys2Proof.Machine.execFetchReadResponse answer s
  | .fetchValidationCompletion => Sys2Proof.Machine.execFetchValidationCompletion s
  | .mirrorWriteResponse answer => Sys2Proof.Machine.execMirrorWriteResponse answer s
  | .validationCompletion => Sys2Proof.Machine.execValidationCompletion s
  | .quiesceMet => Sys2Proof.Machine.execQuiesceMet s
  | .installation => Sys2Proof.Machine.execInstallation s
  | .discardedDownstreamResponse => Sys2Proof.Machine.execDiscardedDownstreamResponse s

end Sys2Proof.Machine
end

