-- ==== Sys2Proof/Machine/Step.lean ====
section
/-! DEFINITION. One step: the command at the front of the queue, or one fine interval on an empty queue. -/

namespace Sys2Proof.Machine

/-- One fine interval of the internal oscillator (100 µs): the running hold-limit timer and the running
backoff timer are lowered by one (R6, R133; 00_scope.md, Units and Quantities). A part held in RESET counts
nothing. -/
def State.fineInterval (s : State) : State :=
  if s.inReset then s
  else { s with pass := { s.pass with holdTimer := s.pass.holdTimer.map (· - 1) },
                tally := { s.tally with backoff := s.tally.backoff.map (· - 1) } }

/-- The command at the front of the queue is taken with the queue's rest. On an empty queue one fine interval
passes (DESIGN CHOICE, log entry 11). -/
def step (s : State) : Host.Outcome State Fault Refusal :=
  match s.pending with
  | [] => .next s.fineInterval
  | c :: rest => exec c { s with pending := rest }

/-- The state with the command that a table word spells at the front of its queue; unchanged where the word
spells none (the opcode table gives no bits, so no word does). -/
def State.withFetchWord (s : State) (nbits w : Nat) : State :=
  match decodeTableWord nbits w with
  | some c => { s with pending := c :: s.pending }
  | none => s

end Sys2Proof.Machine
end

