-- ==== Sys2Proof/Safety.lean ====
section
/-! DEFINITION. What counts as a safe run: the outcome of a step, the hard-reset values, and the bounds and
shapes that every step keeps. -/

namespace Sys2Proof.Machine

/-- The step answers a next state, and that state meets `P`. -/
def NextMeets (P : State → Prop) : Host.Outcome State Fault Refusal → Prop
  | .next s => P s
  | .fault _ => False
  | .refused _ => False

/-- Every step that answers a next state keeps `P`. -/
def KeptByEveryStep (P : State → Prop) : Prop := ∀ s t, P s → step s = .next t → P t

/-! ### Hard-reset values -/

/-- R17, but for the downstream port. -/
def Pass.AtHardReset (p : Pass) : Prop :=
  p.slot = none ∧ p.heldWrite = none ∧ p.heldRead = none ∧ p.holdTimer = none ∧ p.spilling = false ∧
  p.runCount = 0 ∧ p.turn = .tallyEngine ∧ p.notice = none ∧ p.observation = none

/-- R38. -/
def Intake.AtHardReset (i : Intake) : Prop :=
  (∀ w : Fin 4, i.windows[w] = { partialRecord := none, timer := none, inject := false }) ∧
  i.queue = [] ∧ i.holdRequest = false ∧ i.accepted = 0

/-- R76. -/
def Channels.AtHardReset (c : Channels) : Prop :=
  (∀ e : Fin 256, c.meters[e] =
    { state := .retired, baseline := 0, candidate := none, suspectCount := none, lastSequence := none,
      timer := none, gap := 0, residue := 0, staleInBin := false }) ∧
  c.inHand = none ∧ c.pause = false

/-- R106: the working part of one line. -/
def Line.AtHardReset (l : Line) : Prop :=
  l.state = .idle ∧ l.changeoverPending = false ∧ l.timer = none ∧ l.jobCode = 0 ∧ l.unitWeight = 0 ∧
  l.bin = .opened 0 .clear ∧ l.closing = none ∧ l.epoch = .opened 0 ∧ l.epochSnap = none ∧
  l.job = .opened 0 ∧ l.jobSnap = none ∧ l.pulledResidue = 0 ∧ l.packedResidue = 0 ∧
  l.summarySaturation = false

/-- R106. -/
def LineUnit.AtHardReset (u : LineUnit) : Prop :=
  (∀ n : Fin 16, (u.lines[n]).AtHardReset ∧ u.bounds[n] = none) ∧ u.clock = 0 ∧ u.pulses = 0 ∧
  u.advancesDue = 0 ∧ u.handOver = []

/-- R121. -/
def Writer.AtHardReset (w : Writer) : Prop :=
  w.queue = [] ∧ w.step = none ∧
  ∀ n : Fin 16, w.rings[n] =
    { producer := 0, shadow := 0, overrun := 0, pendingLost := 0, reserved := false, initOwed := false }

/-- R142. -/
def Tally.AtHardReset (t : Tally) : Prop :=
  t.queue = [] ∧ t.state = .idle ∧ t.losses = 0 ∧ t.lockedLoss = false ∧ t.computed = none ∧
  t.reservation = none ∧ t.backoff = none ∧ t.misses = [] ∧
  t.lost = { energy := 0, pulled := 0, packed := 0, count := 0, reason := .none }

/-- R164, but for the placement. -/
def Setup.AtHardReset (u : Setup) : Prop :=
  (∀ i, u.shadow.get i = 0) ∧ u.candidate = none ∧ u.active = none ∧ u.generation = none ∧
  u.part = .fetching ∧ u.fetchPosition = 0 ∧ u.pendingApply = false ∧ u.lastCommand = 0 ∧ u.waiting = none

/-- R180. -/
def Alerts.AtHardReset (a : Alerts) : Prop :=
  a.latched = 0 ∧ (∀ i : Fin 4, a.counters[i] = { count := 0, latch := 0 }) ∧ a.reportTimer = none ∧
  (∀ g, a.owed.has g = false) ∧ a.mirror = none ∧ a.readHold = false ∧
  a.applyResult = { generation := 0, code := 0, index := 0 } ∧
  a.commandResult = { word := 0, result := .none }

/-- Every unit in its hard-reset values, no window, matcher, ring or guard in force. -/
def State.AtHardReset (s : State) : Prop :=
  s.pass.AtHardReset ∧ s.intake.AtHardReset ∧ s.channels.AtHardReset ∧ s.lines.AtHardReset ∧
  s.writer.AtHardReset ∧ s.tally.AtHardReset ∧ s.setup.AtHardReset ∧ s.alerts.AtHardReset ∧
  s.cfg = [] ∧ ∀ a, s.guarded a = false

/-! ### Bounds and shapes that every step keeps -/

/-- The queues keep the depths the spec gives them: intake queue 64 (R32), writer queue 16 (R109), tally queue
32 (R126), miss list 16 (R136), and the passthrough run count stays at most 4 (R13). -/
def QueueBounds (s : State) : Prop :=
  s.intake.queue.length ≤ 64 ∧ s.writer.queue.length ≤ 16 ∧ s.tally.queue.length ≤ 32 ∧
  s.tally.misses.length ≤ 16 ∧ s.pass.runCount ≤ 4

/-- The counts keep the widths the spec gives them: pulse count (R82), defect counters and latched copies
(R177), overrun and pending lost counts (R108), loss count of an update in service (R132), gap counts and
residues (section 4.1). -/
def CountBounds (s : State) : Prop :=
  s.lines.pulses ≤ 999 ∧ s.tally.losses ≤ 7 ∧
  (∀ i : Fin 4, (s.alerts.counters[i]).count ≤ 65535 ∧ (s.alerts.counters[i]).latch ≤ 65535) ∧
  (∀ n : Fin 16, (s.writer.rings[n]).overrun ≤ 65535 ∧ (s.writer.rings[n]).pendingLost ≤ 255) ∧
  ∀ e : Fin 256, (s.channels.meters[e]).gap ≤ 255 ∧ (s.channels.meters[e]).residue < 65536

/-- Every ring in force leaves at most its size of records unread, counted to its reserved producer (R108, R115).
With it stand: no setup is active while the part is FETCHING or UNSET (R147), a record in hand has a ring in force
that is reserved for it (R110, R111), the port carries a record or index write for a record in hand alone (R113,
R114), and a ring that is owed its initialising write stands at its start (R119). -/
def RingSpace (s : State) : Prop :=
  (∀ m, s.setup.active = some m → ∀ n : Fin 16, m.kind n ≠ .none →
    ((s.writer.rings[n]).reservedProducer - (s.writer.rings[n]).shadow).toNat ≤ m.ringSize n) ∧
  (s.setup.part = .fetching ∨ s.setup.part = .unset → s.setup.active = none) ∧
  (s.writer.step.isSome = true → ∃ m r rest, s.setup.active = some m ∧ s.writer.queue = r :: rest ∧
    m.kind r.line ≠ .none ∧ (s.writer.rings[r.line]).reserved = true) ∧
  (s.pass.port.isRecordWrite = true ∨ s.pass.port.isIndexWrite = true → s.writer.step.isSome = true) ∧
  ∀ n : Fin 16, (s.writer.rings[n]).initOwed = true →
    (s.writer.rings[n]).producer = 0 ∧ (s.writer.rings[n]).reserved = false

/-- The engine holds no reservation in IDLE, READ_WAIT or BACKOFF (R131). -/
def ReservationOnlyInService (s : State) : Prop :=
  s.tally.state = .idle ∨ s.tally.state = .readWait ∨ s.tally.state = .backoff →
  s.tally.reservation = none

/-- The images of the setup block are in canonical form. -/
def ImagesCanonical (s : State) : Prop :=
  s.setup.shadow.wf = true ∧ (∀ m, s.setup.candidate = some m → m.wf = true) ∧
  ∀ m, s.setup.active = some m → m.wf = true

/-- The image passes the seven steps of validation at the part's placement (R151). -/
def Validated (u : Setup) (m : Image) : Prop := m.validate u.blockAddress = none

/-- The active setup has passed validation, an apply has a candidate, and from QUIESCE on that candidate has
passed validation (R149, R151, R157, R159). -/
def SetupValidated (s : State) : Prop :=
  (∀ m, s.setup.active = some m → Validated s.setup m) ∧
  (∀ p, s.setup.part = .applying p → ∃ m, s.setup.candidate = some m ∧
    (p ≠ .validate → Validated s.setup m))

/-- While no mirror write is in hand and the part is not FETCHING, no group is owed: an owed group has been
requested (R171, R173). -/
def OwedGroupsRequested (s : State) : Prop :=
  s.setup.part ≠ .fetching → s.alerts.mirror = none → ∀ g, s.alerts.owed.has g = false

/-- The snapshot of a kind that a line holds for the hand-over. -/
def Line.waits (l : Line) : SnapshotKind → Bool
  | .bin => l.closing.isSome
  | .epoch => l.epochSnap.isSome
  | .job => l.jobSnap.isSome

/-- The hand-over list names each waiting snapshot once, and nothing else (R98). -/
def HandOverExact (s : State) : Prop :=
  s.lines.handOver.Nodup ∧
  ∀ k (n : Fin 16), (k, n) ∈ s.lines.handOver ↔ (s.lines.lines[n]).waits k = true

/-! ### Situations that the statements speak of -/

/-- A changed command word is the next delivery of the notice `n` (R161, R188). -/
def State.CommandDelivered (s : State) (n : Notice) : Prop :=
  s.inReset = false ∧ s.pass.notice = some n ∧ n.commandDue = true ∧
  n.captureDue = false ∧ n.clockDue = false ∧ n.generationDue = false

/-- The step that takes a changed command word of a given code (R163). -/
def commandStep : Nat → Instr
  | 0 => .noCommand
  | 1 => .closeBins
  | 2 => .restart
  | 3 => .reprime
  | 4 => .transferCounters
  | 5 => .injectCheckFault
  | _ => .undefinedCommand

/-- The state once the command word of the notice `n` is taken as the last command word, before the command
does anything (R161). -/
def State.commandTaken (s : State) (n : Notice) : State :=
  { s with
    pass := { s.pass with notice := { n with commandDue := false }.settled },
    setup := { s.setup with lastCommand := s.setup.shadow.get 2 } }

/-- The alerts once a command word has given a result: held result, its group owed, COMMAND_DONE latched
(R163, R170). -/
def Alerts.withResult (a : Alerts) (word : Word) (r : CommandOutcome) : Alerts :=
  { a with
    commandResult := { word := word, result := r },
    owed := { a.owed with commandResult := true, latched := a.owed.latched || !a.has .commandDone },
    latched := a.latched ||| AlertBit.commandDone.mask }

end Sys2Proof.Machine
end

