-- ==== Sys2Proof/Certificates/Slice0/Obligations.lean ====
section
/-! DEFINITION. The statements for the provers. In a completion statement `m` stands for the mirror write that
the Alert Unit requests at the end of the step; OwedGroupsAreRequestedByEveryStep says when it requests one. The
premise `steady` carries the model's order of a notice's deliveries (log entry 8), the premise `closesTaken` its
order of closes, hand-overs and clock (log entry 12); the field `lastAnswer` is the model's own (log entry 6). -/

open Sys2Proof Sys2Proof.Machine

/-! ### The queue and reset -/

/-- A step takes the command at the front of the queue and runs it with the queue's rest. -/
def Obligations.StepTakesTheFrontCommand : Prop :=
  ∀ (c : Instr) (rest : List Instr) (s : State), s.pending = c :: rest →
    step s = exec c { s with pending := rest }

/-- On an empty queue one fine interval passes: the running hold-limit timer and backoff timer are lowered by
one and nothing else changes. That an empty queue stands for a fine interval is the model's choice (log entry
11). Under RESET nothing is counted. -/
def Obligations.EmptyQueuePassesAFineInterval : Prop :=
  ∀ s : State, s.pending = [] →
    (s.inReset = true → step s = .next s) ∧
    (s.inReset = false → step s = .next { s with
      pass := { s.pass with holdTimer := s.pass.holdTimer.map (fun k => k - 1) },
      tally := { s.tally with backoff := s.tally.backoff.map (fun k => k - 1) } })

/-- Every command that the ports can carry answers a next state with the queue's rest untouched. One that comes while
its conditions, which the last clause lists command by command, do not all hold answers the state as it is, and so
does a burst at a port that is not ready (the model's choices, log entries 3 and 28); the conditions on a notice in
delivery, on the marks of a release and of an advance, and on closes and hand-overs are the model's (log entries 5, 8
and 12), and so are those of the phases of an apply on a line that was NONE (log entry 33). A burst that the ports
cannot carry, one without a word address or without 1 to 16 words, faults (the model's choice, log entry 9). -/
def Obligations.EveryPortCommandAnswersNext : Prop :=
  (∀ (a : Word) (k : Nat), burstWellFormed a k = true ↔ a.toNat % 4 = 0 ∧ 1 ≤ k ∧ k ≤ 16) ∧
  (∀ c : Instr, c.wellFormed = true ↔ (∀ a ws, c = .upstreamWrite a ws → burstWellFormed a ws.length = true) ∧
    (∀ a es, c = .upstreamRead a es → burstWellFormed a es.length = true) ∧
    ∀ data, c = .passthroughResponse (.ok data) → data.length ≤ 16) ∧
  (∀ (c : Instr) (s : State), c.wellFormed = true → ∃ t, exec c s = .next t ∧ t.pending = s.pending) ∧
  (∀ a ws (s : State), burstWellFormed a ws.length = false →
    exec (.upstreamWrite a ws) s = .fault .illFormedBurst) ∧
  (∀ a es (s : State), burstWellFormed a es.length = false →
    exec (.upstreamRead a es) s = .fault .illFormedBurst) ∧
  (∀ (c : Instr) (s : State), c.wellFormed = true →
    let carried (k : Client) : Prop := ∃ txn, s.pass.port = .internal k txn
    let delivers (p : Notice → Prop) : Prop := s.inReset = false ∧ ∃ n, s.pass.notice = some n ∧ p n
    let commands (p : Nat → Prop) : Prop :=
      (∃ n, s.CommandDelivered n) ∧ p ((s.setup.shadow.get 2).toNat % 256)
    let new := s.setup.candidate.getD []
    let clear : Prop :=
      (∀ r ∈ s.writer.queue, leavingRing s.cfg new r.line = false ∧ ringRestarts s.cfg new r.line = false) ∧
      ∀ k ∈ s.lines.handOver, leavingRing s.cfg new k.2 = false
    let met : Prop := match c with
      | .resetAssert => True
      | .resetRelease _ => s.inReset = true
      | .tickPulse => s.inReset = false
      | .clockAdvance =>
        s.steady = true ∧ 0 < s.lines.advancesDue ∧ s.closesTaken = true ∧ s.expiryDue = false
      | .assemblyTimeout w => s.steady = true ∧ (s.intake.windows[w]).timer = some 0 ∧
        (s.intake.windows[w]).partialRecord.isSome = true
      | .staleExpiry e => s.steady = true ∧ (s.channels.meters[e]).timer = some 0 ∧
        ((s.channels.meters[e]).state = .live ∨ (s.channels.meters[e]).state = .suspect ∨
          (s.channels.meters[e]).state = .stale)
      | .changeoverTimerExpiry n =>
        s.steady = true ∧ (s.lines.lines[n]).state = .changeover ∧ (s.lines.lines[n]).timer = some 0
      | .binBoundaryExpiry =>
        s.inReset = false ∧ ∃ (h : Fin 16) (b : Bound), s.lines.bounds[h] = some b ∧ b.bin ≤ s.lines.clock.toNat
      | .reportTimerExpiry => s.steady = true ∧ s.alerts.reportTimer = some 0
      | .holdLimitExpiry => s.steady = true ∧ s.pass.heldWrite.isSome = true ∧ s.pass.holdTimer = some 0 ∧
        s.pass.releaseDue = false
      | .backoffExpiry => s.steady = true ∧ s.tally.state = .backoff ∧ s.tally.backoff = some 0
      | .upstreamWrite _ _ => s.portOpen = true
      | .upstreamRead _ _ => s.portOpen = true
      | .holdRelease => s.steady = true ∧ s.pass.heldWrite.isSome = true ∧ s.pass.releaseDue = true
      | .readHoldRelease => s.steady = true ∧ s.pass.heldRead.isSome = true ∧ s.alerts.readHold = false
      | .arbiterDecision => s.steady = true ∧ s.pass.port = .free
      | .setupCapture => delivers (fun n => n.captureDue = true)
      | .clockWordWrite => delivers (fun n => n.clockDue = true ∧ n.captureDue = false) ∧ s.closesTaken = true
      | .generationWrite =>
        delivers (fun n => n.generationDue = true ∧ n.captureDue = false ∧ n.clockDue = false)
      | .consumerIndexWrite => delivers (fun n => n.consumerDue = true)
      | .latchedAlertRead => s.steady = true ∧ s.pass.observation.isSome = true
      | .noCommand => commands (fun k => k = 0)
      | .closeBins => commands (fun k => k = 1) ∧ s.closesTaken = true
      | .restart => commands (fun k => k = 2) ∧ s.closesTaken = true
      | .reprime => commands (fun k => k = 3)
      | .transferCounters => commands (fun k => k = 4)
      | .injectCheckFault => commands (fun k => k = 5)
      | .undefinedCommand => commands (fun k => 6 ≤ k)
      | .passthroughResponse answer => s.steady = true ∧ s.pass.port = .passthrough ∧
        ((s.pass.slot.isSome = true ∧ answer = .error) ∨
         (∃ a ws, s.pass.slot = some (.write a ws) ∧ answer = .ok []) ∨
         ∃ a es data, s.pass.slot = some (.read a es) ∧ answer = .ok data ∧ data.length = es.length)
      | .recordTake => s.steady = true ∧ (s.setup.part = .active ∨ ∃ p, s.setup.part = .applying p) ∧
        s.channels.pause = false ∧ s.channels.inHand = none ∧ s.intake.queue ≠ []
      | .handOver => s.inReset = false ∧ s.lines.handOver ≠ [] ∧ s.writer.queue.length < 16
      | .tallyMissHandOver => s.steady = true ∧ s.tally.misses ≠ [] ∧ s.writer.queue.length < 16
      | .takeIntoHand => s.steady = true ∧ s.writer.step = none ∧ s.writer.queue ≠ [] ∧
        (∀ n : Fin 16, (s.writer.rings[n]).initOwed = false) ∧ ∀ n, ¬ carried (.initialisingWrite n)
      | .recordWriteResponse _ => s.steady = true ∧ carried .recordWrite
      | .indexWriteResponse _ => s.steady = true ∧ carried .indexWrite
      | .initialisingWriteResponse _ => s.steady = true ∧ ∃ n, carried (.initialisingWrite n)
      | .updateIntoHand =>
        s.steady = true ∧ s.tally.state = .idle ∧ s.tally.queue ≠ [] ∧ s.postingHeld = false
      | .reserveReadResponse _ => s.steady = true ∧ carried .reserveRead
      | .conditionalWriteResponse _ => s.steady = true ∧ carried .conditionalWrite
      | .fetchReadResponse _ => s.steady = true ∧ s.setup.part = .fetching ∧ carried .fetch
      | .fetchValidationCompletion => s.steady = true ∧ s.setup.part = .fetching ∧
        s.setup.fetchPosition = 128 ∧ s.setup.candidate.isSome = true
      | .mirrorWriteResponse _ => s.steady = true ∧ ∃ g, carried (.mirror g)
      | .validationCompletion =>
        s.steady = true ∧ s.setup.part = .applying .validate ∧ s.closesTaken = true
      | .quiesceMet => s.steady = true ∧ s.setup.part = .applying .quiesce ∧ s.closesTaken = true ∧
        s.channels.inHand = none ∧ clear ∧ ∀ old, s.setup.candidate = some new → s.setup.active = some old →
          new.tallyBase ≠ old.tallyBase → s.tally.queue = [] ∧ s.tally.reservation = none
      | .installation => s.steady = true ∧ s.setup.part = .applying .drain ∧ s.closesTaken = true ∧ clear
      | .discardedDownstreamResponse => s.pass.port = .orphan
    ¬ met → exec c s = .next s)

/-- The state after reset: hard-reset values, RESET asserted, UREADY withheld, ALERT deasserted, queue empty.
That it stands before the release is the model's choice (log entry 4). -/
def Obligations.ResetStateHoldsHardResetValues : Prop :=
  State.reset.AtHardReset ∧ State.reset.inReset = true ∧ State.reset.pending = [] ∧
  State.reset.pass.port = .free ∧ State.reset.uready = false ∧ State.reset.alertOutput = false

/-- RESET_ASSERT and RESET_RELEASE leave every unit in its hard-reset values; a granted transaction is left to
end at the memory; the release samples the straps, requests fetch burst 0 and makes the port ready. That the
placement stands until the release is the model's choice (log entry 4). -/
def Obligations.ResetCommandsTakeHardResetValues : Prop :=
  (∀ s : State, ∃ t, exec .resetAssert s = .next t ∧ t.AtHardReset ∧ t.inReset = true ∧
    t.setup.base = s.setup.base ∧ t.pass.lastAnswer = none ∧ t.pending = s.pending ∧
    (s.pass.port = .free → t.pass.port = .free) ∧ (s.pass.port ≠ .free → t.pass.port = .orphan)) ∧
  (∀ (straps : BitVec 8) (s : State), s.inReset = true →
    ∃ t, exec (.resetRelease straps) s = .next t ∧ t.AtHardReset ∧ t.inReset = false ∧
    t.setup.base = straps ∧ t.pending = s.pending ∧
    (s.pass.port = .free → t.pass.port = .free) ∧ (s.pass.port ≠ .free → t.pass.port = .orphan) ∧
    t.fetchRequest = true ∧
    t.fetchTxn = .read (straps.toNat * 2 ^ 24) (List.replicate 16 0xF#4) ∧ t.uready = true)

/-- SETUP_BASE is sampled at the release of RESET and at no other step (that the end of the power-on reset is
the same step, and that the old placement stands until the release, is the model's choice, log entry 4); it
places the setup block at SETUP_BASE × 16 MiB and the status block 8192 bytes further, 256 bytes long; fetch,
capture, guard and mirror writes use the placement. -/
def Obligations.PlacementIsSampledAtReleaseAlone : Prop :=
  (∀ (straps : BitVec 8) (s t : State), s.inReset = true → exec (.resetRelease straps) s = .next t →
    t.setup.base = straps) ∧
  (∀ (straps : BitVec 8) (s t : State), s.inReset = false → exec (.resetRelease straps) s = .next t →
    t.setup.base = s.setup.base) ∧
  (∀ (c : Instr) (s t : State), (∀ straps, c ≠ .resetRelease straps) → exec c s = .next t →
    t.setup.base = s.setup.base) ∧
  (∀ u : Setup, u.blockAddress = u.base.toNat * (16 * 2 ^ 20) ∧ u.statusAddress = u.blockAddress + 8192 ∧
    (u.base = 0 → u.blockAddress = 0) ∧
    (u.base = 255 → u.blockAddress = 0xFF000000 ∧ u.statusAddress = 0xFF002000)) ∧
  (∀ s : State,
    s.fetchTxn = .read (s.setup.blockAddress + 64 * s.setup.fetchPosition) (List.replicate 16 0xF#4)) ∧
  (∀ (s : State) (g : Group), ∃ ws, s.mirrorTxn g = .write (s.setup.statusAddress + 4 * g.first) ws) ∧
  (∀ (u : Setup) (a i : Nat), u.wordNumber a = some i →
    u.blockAddress + 4 * i ≤ a ∧ a < u.blockAddress + 4 * i + 4 ∧ i < 2048) ∧
  (∀ (s : State) (a : Nat), s.setup.part = .active ∨ (∃ p, s.setup.part = .applying p) →
    s.setup.active.isSome = true → s.setup.statusAddress ≤ a → a < s.setup.statusAddress + 256 →
    s.guarded a = true)

/-- While RESET is asserted every other command of the ports and of the part leaves the state as it is, UREADY
is withheld and ALERT deasserted; the response to a transaction granted before the reset frees the downstream
port and does nothing else, in every state. -/
def Obligations.NothingElseHappensUnderReset : Prop :=
  (∀ (c : Instr) (s : State), s.inReset = true → c.wellFormed = true → c ≠ .resetAssert →
    (∀ straps, c ≠ .resetRelease straps) → c ≠ .discardedDownstreamResponse → exec c s = .next s) ∧
  (∀ s : State, s.inReset = true → s.uready = false ∧ s.alertOutput = false) ∧
  (∀ s : State, s.pass.port = .orphan → ∃ m, exec .discardedDownstreamResponse s =
    .next { s with pass := { s.pass with port := .free }, alerts := { s.alerts with mirror := m } })

/-! ### Time -/

/-- A TICK pulse raises the pulse count; the 1000th sets it to 0 and makes one advance of the clock due; every
running assembly timer is lowered by one. Nothing else changes. The count of due advances is the model's own
(log entry 5). -/
def Obligations.TickPulseCountsAndLowersAssemblyTimers : Prop :=
  ∀ s : State, s.inReset = false → ∃ (m : Option Group) (ws : Vector WindowState 4),
    exec .tickPulse s = .next { s with
      lines := { s.lines with
        pulses := if s.lines.pulses + 1 < 1000 then s.lines.pulses + 1 else 0,
        advancesDue := if s.lines.pulses + 1 < 1000 then s.lines.advancesDue else s.lines.advancesDue + 1 },
      intake := { s.intake with windows := ws },
      alerts := { s.alerts with mirror := m } } ∧
    ∀ i : Fin 4, ws[i] = { s.intake.windows[i] with
      timer := (s.intake.windows[i]).timer.map (fun k => k - 1) }

/-- An advance of the clock adds one second by each line's state, lowers the changeover, stale and report timers
by one, and leaves the boundaries unless the clock wraps to 0; a count that passes its width latches SATURATION.
That a wrap latches no CLOCK_STEP is deduced (log entry 18); that a saturating stopped count sets the bin's flag
and latches SATURATION is deduced too (log entry 13). That the advance waits on the model's own count of due
advances is log entry 5, that it waits for the closes and expiries of the advance before is log entry 12. The
first clause says what these premises hold of a state. -/
def Obligations.ClockAdvanceAddsOneSecond : Prop :=
  (∀ s : State,
    (s.steady = true ↔ s.inReset = false ∧ s.pass.notice = none) ∧
    (s.closesTaken = true ↔
      (∀ (h : Fin 16) (b : Bound), s.lines.bounds[h] = some b → s.lines.clock.toNat < b.bin) ∧
      (s.lines.handOver = [] ∨ 16 ≤ s.writer.queue.length)) ∧
    (s.expiryDue = false ↔ (∀ n : Fin 16, (s.lines.lines[n]).timer ≠ some 0) ∧
      (∀ e : Fin 256, (s.channels.meters[e]).timer ≠ some 0) ∧ s.alerts.reportTimer ≠ some 0)) ∧
  ∀ s : State, s.steady = true → 0 < s.lines.advancesDue → s.closesTaken = true → s.expiryDue = false →
    ∃ t, exec .clockAdvance s = .next t ∧
    t.lines.clock = s.lines.clock + 1 ∧ t.lines.advancesDue = s.lines.advancesDue - 1 ∧
    t.lines.pulses = s.lines.pulses ∧ t.lines.handOver = s.lines.handOver ∧
    (t.lines.clock ≠ 0 → t.lines.bounds = s.lines.bounds) ∧
    (t.lines.clock = 0 → ∀ h : Fin 16, t.lines.bounds[h] =
      if s.cfg.isHead h then some (s.cfg.boundAt h 0) else none) ∧
    (∀ n : Fin 16, let l := s.lines.lines[n]
      (l.state = .changeover → t.lines.lines[n] = { l with
        timer := l.timer.map (fun k => k - 1),
        job := { l.job with
          changeoverSeconds := min (l.job.changeoverSeconds + 1) 4294967295,
          saturated := l.job.saturated || decide (4294967295 < l.job.changeoverSeconds + 1) } }) ∧
      (l.state = .stopped → t.lines.lines[n] = { l with
        bin := { l.bin with
          stoppedSeconds := min (l.bin.stoppedSeconds + 1) 4294967295,
          flags := { l.bin.flags with
            saturated := l.bin.flags.saturated || decide (4294967295 < l.bin.stoppedSeconds + 1) } },
        summarySaturation := l.summarySaturation || decide (4294967295 < l.bin.stoppedSeconds + 1) }) ∧
      (l.state = .running ∨ l.state = .idle → t.lines.lines[n] = l)) ∧
    (∀ e : Fin 256, t.channels.meters[e] = { s.channels.meters[e] with
      timer := (s.channels.meters[e]).timer.map (fun k => k - 1) }) ∧
    t.channels.inHand = s.channels.inHand ∧ t.channels.pause = s.channels.pause ∧
    t.alerts.reportTimer = s.alerts.reportTimer.map (fun k => k - 1) ∧
    (∀ b, b ≠ .saturation → t.alerts.has b = s.alerts.has b) ∧
    (t.alerts.has .saturation = true ↔ s.alerts.has .saturation = true ∨ ∃ n : Fin 16,
      let l := s.lines.lines[n]
      (l.state = .changeover ∧ 4294967295 < l.job.changeoverSeconds + 1) ∨
      (l.state = .stopped ∧ 4294967295 < l.bin.stoppedSeconds + 1)) ∧
    t.alerts.counters = s.alerts.counters ∧ t.alerts.readHold = s.alerts.readHold ∧
    t.alerts.applyResult = s.alerts.applyResult ∧ t.alerts.commandResult = s.alerts.commandResult ∧
    t.pass = s.pass ∧ t.intake = s.intake ∧ t.writer = s.writer ∧ t.tally = s.tally ∧
    t.setup = s.setup ∧ t.pending = s.pending ∧ t.inReset = s.inReset

/-- The expiry of an assembly timer abandons the partial record with one STRAY; that of a changeover timer puts
the line into RUNNING; that of the report timer transfers the automatic counters, makes the report group owed
and restarts the timer. -/
def Obligations.TimerExpiriesActOnTheirOwners : Prop :=
  (∀ (w : Fin 4) (s : State), s.steady = true → (s.intake.windows[w]).timer = some 0 →
    (s.intake.windows[w]).partialRecord.isSome = true → ∃ m, exec (.assemblyTimeout w) s = .next { s with
      intake := { s.intake with
        windows := s.intake.windows.set w
          { s.intake.windows[w] with partialRecord := none, timer := none } },
      alerts := { s.alerts.report s.cfg .stray with mirror := m } }) ∧
  (∀ (n : Fin 16) (s : State), s.steady = true → (s.lines.lines[n]).state = .changeover →
    (s.lines.lines[n]).timer = some 0 → ∃ m, exec (.changeoverTimerExpiry n) s = .next { s with
      lines := { s.lines with
        lines := s.lines.lines.set n { s.lines.lines[n] with state := .running, timer := none } },
      alerts := { s.alerts with mirror := m } }) ∧
  (∀ s : State, s.steady = true → s.alerts.reportTimer = some 0 →
    ∃ (m : Option Group) (cs : Vector Counter 4) (owedCounters : Bool), exec .reportTimerExpiry s = .next { s with
      alerts := { s.alerts with
        counters := cs, reportTimer := some s.cfg.reportInterval, mirror := m,
        owed := { s.alerts.owed with report := true, counters := owedCounters } } } ∧
    (∀ i : Fin 4, cs[i] = if s.cfg.automatic i then
      { count := 0, latch := (s.alerts.counters[i]).count } else s.alerts.counters[i]) ∧
    (owedCounters = true ↔ s.alerts.owed.counters = true ∨
      ∃ i : Fin 4, (cs[i]).latch ≠ (s.alerts.counters[i]).latch))

/-- R66: the expiry of a stale timer in LIVE or SUSPECT makes the channel STALE with gap count 1, timer
restarted, flag set and STALE_ENTER latched, baseline, last sequence and residue kept; in STALE it raises the
gap count, saturating at 255, restarts the timer and latches nothing. Where no other channel was STALE the
condition ANY_STALE rises and STALE_EDGE is latched (R168). -/
def Obligations.StaleExpiryEntersStaleOrRaisesTheGap : Prop :=
  ∀ (e : Fin 256) (s : State), s.steady = true → (s.channels.meters[e]).timer = some 0 →
    ((s.channels.meters[e]).state = .live ∨ (s.channels.meters[e]).state = .suspect →
      ∃ t, exec (.staleExpiry e) s = .next t ∧
      t = { s with
        channels := { s.channels with
          meters := s.channels.meters.set e { s.channels.meters[e] with
            state := .stale, candidate := none, suspectCount := none, gap := 1,
            timer := some (s.cfg.channel e).timeout, staleInBin := true } },
        alerts := t.alerts } ∧
      t.alerts.has .staleEnter = true ∧ t.channels.anyStale = true ∧
      (t.alerts.has .staleEdge = true ↔ s.alerts.has .staleEdge = true ∨ s.channels.anyStale = false) ∧
      (s.channels.anyStale = false → t.alerts.owed.realTime = true) ∧
      (∀ b, b ≠ .staleEnter → b ≠ .staleEdge → t.alerts.has b = s.alerts.has b) ∧
      t.alerts.counters = s.alerts.counters) ∧
    ((s.channels.meters[e]).state = .stale →
      ∃ m, exec (.staleExpiry e) s = .next { s with
        channels := { s.channels with
          meters := s.channels.meters.set e { s.channels.meters[e] with
            gap := min ((s.channels.meters[e]).gap + 1) 255,
            timer := some (s.cfg.channel e).timeout } },
        alerts := { s.alerts with mirror := m } })

/-! ### Group close, jobs, credits -/

/-- The next bin boundary is the least multiple of the bin length ahead of the clock, and the next epoch boundary
the least multiple of bin length × epoch length; the boundary expiry closes the lowest-numbered head whose
boundary is reached, with its epoch where that boundary is reached too. -/
def Obligations.BoundaryExpiryClosesTheLowestDueGroup : Prop :=
  (∀ (m : Image) (h : Fin 16) (now b e : Nat), b = m.binLength h → e = m.epochLength h → 0 < b → 0 < e →
    b ∣ (m.boundAt h now).bin ∧ now < (m.boundAt h now).bin ∧
    (∀ k, b ∣ k → now < k → (m.boundAt h now).bin ≤ k) ∧
    b * e ∣ (m.boundAt h now).epoch ∧ now < (m.boundAt h now).epoch ∧
    ∀ k, b * e ∣ k → now < k → (m.boundAt h now).epoch ≤ k) ∧
  (∀ (s : State) (h : Fin 16) (b : Bound), s.inReset = false → s.lines.bounds[h] = some b →
    b.bin ≤ s.lines.clock.toNat →
    (∀ k : Fin 16, k < h → ∀ c, s.lines.bounds[k] = some c → s.lines.clock.toNat < c.bin) →
    ∃ m, exec .binBoundaryExpiry s = .next
      (let x := s.books.closeGroup s.cfg h (decide (b.epoch ≤ s.lines.clock.toNat))
       { s with channels := x.channels, lines := x.lines, tally := x.ledger.tally,
                alerts := { x.ledger.alerts with mirror := m } }))

/-- A group close snapshots every member's bin, or merges it field by field into the snapshot that waits, adds it
to the epoch accumulator, snapshots or merges that where the epoch closes, and reopens the bin at the clock; the
snapshots that it makes join the hand-over list at its tail in increasing line number, each line's bin before its
epoch; a FORMING line's share joins its job; gram remainders are carried, one tally update per member is posted
one by one in line order, the head's boundaries and the members' stale-in-bin flags are renewed, and every line
outside the group stays as it was. SATURATION is latched where an addition of the close passes its field's width:
a member's share, epoch sum, merge or job sum. That the share in the posted energy is exact, and that the
snapshot's saturates, is deduced (log entry 15), and so is the job code of a merged bin (log entry 14); the
unbounded covered length and count of bins are log entry 10. -/
def Obligations.GroupCloseReopensMembersAndPostsUpdates : Prop :=
  ∀ (m : Image) (h : Fin 16) (withEpoch : Bool) (x : Books),
    let y := x.closeGroup m h withEpoch
    let now := x.lines.clock.toNat
    let top32 := 4294967295
    let plus (a b : Sums) : Sums :=
      { thermal := min (a.thermal + b.thermal) top32, electric := min (a.electric + b.electric) top32,
        auxiliary := min (a.auxiliary + b.auxiliary) top32, share := min (a.share + b.share) top32,
        carriedIn := min (a.carriedIn + b.carriedIn) top32, estimated := min (a.estimated + b.estimated) top32,
        changeover := min (a.changeover + b.changeover) top32, pulledKg := min (a.pulledKg + b.pulledKg) top32,
        packedKg := min (a.packedKg + b.packedKg) top32, unweighed := min (a.unweighed + b.unweighed) 65535,
        stoppedSeconds := min (a.stoppedSeconds + b.stoppedSeconds) top32,
        reprimes := min (a.reprimes + b.reprimes) 255 }
    let passes (a b : Sums) : Bool :=
      decide (top32 < a.thermal + b.thermal) || decide (top32 < a.electric + b.electric) ||
      decide (top32 < a.auxiliary + b.auxiliary) || decide (top32 < a.share + b.share) ||
      decide (top32 < a.carriedIn + b.carriedIn) || decide (top32 < a.estimated + b.estimated) ||
      decide (top32 < a.changeover + b.changeover) || decide (top32 < a.pulledKg + b.pulledKg) ||
      decide (top32 < a.packedKg + b.packedKg) || decide (65535 < a.unweighed + b.unweighed) ||
      decide (top32 < a.stoppedSeconds + b.stoppedSeconds) || decide (255 < a.reprimes + b.reprimes)
    let joint (a b : BinFlags) (full : Bool) : BinFlags :=
      { saturated := a.saturated || b.saturated || full, stopped := a.stopped || b.stopped,
        changeover := a.changeover || b.changeover }
    let fresh (n : Fin 16) : BinSnapshot :=
      { start := (x.line n).bin.start, covered := now - (x.line n).bin.start,
        sums := {
          thermal := (x.line n).bin.thermal, electric := (x.line n).bin.electric,
          auxiliary := (x.line n).bin.auxiliary, share := min (x.shareIn m h n) top32,
          carriedIn := (x.line n).bin.carriedIn, estimated := (x.line n).bin.estimated,
          changeover := (x.line n).bin.changeover,
          pulledKg := ((x.line n).pulledResidue + (x.line n).bin.pulledGrams) / 1000,
          packedKg := ((x.line n).packedResidue + (x.line n).bin.packedGrams) / 1000,
          unweighed := (x.line n).bin.unweighed, stoppedSeconds := (x.line n).bin.stoppedSeconds,
          reprimes := (x.line n).bin.reprimes },
        stale := ((List.finRange 256).filter (fun e => (x.channels.meters[e]).staleInBin &&
          m.channelEnabled e && decide ((m.channel e).line = n))).length,
        jobCode := (x.line n).jobCode, kind := m.kind n,
        flags := { (x.line n).bin.flags with
          saturated := (x.line n).bin.flags.saturated || decide (top32 < x.shareIn m h n) },
        merged := 0 }
    let summed (n : Fin 16) : Epoch :=
      { start := (x.line n).epoch.start, covered := (x.line n).epoch.covered + (fresh n).covered,
        bins := (x.line n).epoch.bins + 1, sums := plus (x.line n).epoch.sums (fresh n).sums,
        stale := max (x.line n).epoch.stale (fresh n).stale,
        flags := joint (x.line n).epoch.flags (fresh n).flags
          (passes (x.line n).epoch.sums (fresh n).sums) }
    let summary (n : Fin 16) : Bool := (x.line n).summarySaturation || decide (top32 < x.shareIn m h n) ||
      passes (x.line n).epoch.sums (fresh n).sums
    let ended (n : Fin 16) : Epoch := { summed n with
      flags := { (summed n).flags with saturated := (summed n).flags.saturated || summary n } }
    (∀ n, n ∉ m.members h → y.line n = x.line n) ∧
    (∀ n, n ∈ m.members h →
      (y.line n).bin = .opened now { saturated := false, stopped := (x.line n).state == .stopped,
                                     changeover := (x.line n).state == .changeover } ∧
      ((x.line n).closing = none → (y.line n).closing = some (fresh n)) ∧
      (∀ w, (x.line n).closing = some w → (y.line n).closing = some {
        start := w.start, covered := w.covered + (fresh n).covered, sums := plus w.sums (fresh n).sums,
        stale := max w.stale (fresh n).stale, jobCode := w.jobCode, kind := w.kind,
        flags := joint w.flags (fresh n).flags (passes w.sums (fresh n).sums),
        merged := min (w.merged + 1) 255 }) ∧
      (y.line n).pulledResidue = ((x.line n).pulledResidue + (x.line n).bin.pulledGrams) % 1000 ∧
      (y.line n).packedResidue = ((x.line n).packedResidue + (x.line n).bin.packedGrams) % 1000 ∧
      (y.line n).state = (x.line n).state ∧ (y.line n).timer = (x.line n).timer ∧
      (y.line n).changeoverPending = (x.line n).changeoverPending ∧
      (y.line n).jobCode = (x.line n).jobCode ∧ (y.line n).unitWeight = (x.line n).unitWeight ∧
      (y.line n).jobSnap = (x.line n).jobSnap ∧
      (y.line n).job = (if m.kind n = .forming then { (x.line n).job with
        energy := min ((x.line n).job.energy + x.shareIn m h n) (2 ^ 64 - 1),
        share := min ((x.line n).job.share + x.shareIn m h n) (2 ^ 64 - 1),
        saturated := (x.line n).job.saturated ||
          (decide (2 ^ 64 - 1 < (x.line n).job.energy + x.shareIn m h n) ||
           decide (2 ^ 64 - 1 < (x.line n).job.share + x.shareIn m h n)) } else (x.line n).job) ∧
      (withEpoch = true → (y.line n).epoch = .opened now ∧ (y.line n).summarySaturation = false ∧
        ((x.line n).epochSnap = none →
          (y.line n).epochSnap = some { epoch := ended n, kind := m.kind n, merged := 0 }) ∧
        ∀ w, (x.line n).epochSnap = some w → (y.line n).epochSnap = some {
          epoch := {
            start := w.epoch.start, covered := w.epoch.covered + (ended n).covered,
            bins := w.epoch.bins + (ended n).bins, sums := plus w.epoch.sums (ended n).sums,
            stale := max w.epoch.stale (ended n).stale,
            flags := joint w.epoch.flags (ended n).flags (passes w.epoch.sums (ended n).sums) },
          kind := w.kind, merged := min (w.merged + 1) 255 }) ∧
      (withEpoch = false → (y.line n).epochSnap = (x.line n).epochSnap ∧
        (y.line n).epoch = summed n ∧ (y.line n).summarySaturation = summary n)) ∧
    (m.members h).Pairwise (fun a b => a < b) ∧
    y.lines.handOver = x.lines.handOver ++ (m.members h).flatMap (fun n =>
      (if (x.line n).closing = none then [(.bin, n)] else []) ++
      (if withEpoch = true ∧ (x.line n).epochSnap = none then [(.epoch, n)] else [])) ∧
    (let posted := ((m.members h).map (fun n : Fin 16 =>
       { entry := 1024 + n.val, line := n,
         energy := (x.line n).bin.thermal + (x.line n).bin.electric + (x.line n).bin.auxiliary +
           (if m.kind n = .forming then x.shareIn m h n else 0),
         pulled := ((x.line n).pulledResidue + (x.line n).bin.pulledGrams) / 1000,
         packed := ((x.line n).packedResidue + (x.line n).bin.packedGrams) / 1000,
         changeover := (x.line n).bin.changeover, count := 1, time := now : Update })).foldl
           (fun l u => l.post u) x.ledger
     let saturates (n : Fin 16) : Bool := decide (top32 < x.shareIn m h n) ||
       passes (x.line n).epoch.sums (fresh n).sums ||
       ((x.line n).closing).any (fun w => passes w.sums (fresh n).sums) ||
       (decide (m.kind n = .forming) &&
         (decide (2 ^ 64 - 1 < (x.line n).job.energy + x.shareIn m h n) ||
          decide (2 ^ 64 - 1 < (x.line n).job.share + x.shareIn m h n))) ||
       (withEpoch && ((x.line n).epochSnap).any (fun w => passes w.epoch.sums (ended n).sums))
     y.ledger = { posted with
       alerts := if (m.members h).any saturates then posted.alerts.latch .saturation else posted.alerts }) ∧
    y.lines.clock = x.lines.clock ∧ y.lines.pulses = x.lines.pulses ∧
    y.lines.bounds[h] = some (m.boundAt h now) ∧ (∀ k : Fin 16, k ≠ h → y.lines.bounds[k] = x.lines.bounds[k]) ∧
    (∀ e : Fin 256, y.channels.meters[e] = { x.channels.meters[e] with
      staleInBin := if m.channelEnabled e = true ∧ (m.channel e).line ∈ m.members h
        then (x.channels.meters[e]).state == .stale else (x.channels.meters[e]).staleInBin })

/-- The furnace's bin energy is shared by pulled kilograms: floors, with the residue to the largest mass and the
lowest line among equals; with no mass the whole stays unapportioned; shares and unapportioned energy always sum
to the bin energy. A group without a furnace at its head shares nothing. In a close of a group with a furnace at
its head the shares and the unapportioned energy are these, for the furnace's three class sums and the kilograms
that each child's closing bin reports. -/
def Obligations.ApportionmentSharesTheWholeEnergy : Prop :=
  (∀ (energy : Nat) (cs : List (Fin 16 × Nat)), cs.Pairwise (fun a b => a.1 < b.1) →
    let total := (cs.map Prod.snd).sum
    let r := apportion energy cs
    (total = 0 → r.2 = energy ∧ r.1 = cs.map (fun c => (c.1, 0))) ∧
    (0 < total → r.2 = 0 ∧ ∃ best ∈ cs, (∀ c ∈ cs, c.2 ≤ best.2) ∧
      (∀ c ∈ cs, c.2 = best.2 → best.1 ≤ c.1) ∧
      r.1 = cs.map (fun c => (c.1, energy * c.2 / total +
        if c.1 = best.1 then energy - (cs.map (fun d => energy * d.2 / total)).sum else 0))) ∧
    (r.1.map Prod.snd).sum + r.2 = energy) ∧
  (∀ (m : Image) (h n : Fin 16) (x : Books), m.kind h ≠ .furnace → x.shareIn m h n = 0) ∧
  (∀ (m : Image) (h : Fin 16) (x : Books), m.kind h = .furnace →
    let cs := ((m.members h).filter (fun n => decide (n ≠ h))).map (fun n =>
      (n, ((x.line n).pulledResidue + (x.line n).bin.pulledGrams) / 1000))
    let r := apportion ((x.line h).bin.thermal + (x.line h).bin.electric + (x.line h).bin.auxiliary) cs
    cs.Pairwise (fun a b => a.1 < b.1) ∧ x.shareIn m h h = r.2 ∧
    (∀ n, m.parent n = some h → n ≠ h → (n, x.shareIn m h n) ∈ r.1) ∧
    ∀ c ∈ cs, m.parent c.1 = some h)

/-- A job close reports whole kilograms and keeps the grams that remain, snapshots the accumulator at the tail
of the hand-over list or merges it into the waiting snapshot, posts one update unless the code is 0, reopens the
accumulator under the new code, and leaves the open bin and every other line; a merge that passes a field's width
latches SATURATION. The masses of a merged job
saturate at 64 bits (log entry 10). -/
def Obligations.JobCloseSnapshotsPostsAndReopens : Prop :=
  ∀ (n : Fin 16) (code : Nat) (x : Books),
    let l := x.line n
    let y := x.closeJob n code
    let now := x.lines.clock.toNat
    let passes (w : JobSnapshot) : Bool := decide (2 ^ 64 - 1 < w.energy + l.job.energy) ||
      decide (2 ^ 64 - 1 < w.share + l.job.share) || decide (2 ^ 32 - 1 < w.changeover + l.job.changeover) ||
      decide (2 ^ 32 - 1 < w.changeoverSeconds + l.job.changeoverSeconds) ||
      decide (2 ^ 64 - 1 < w.pulledKg + l.job.pulledGrams / 1000) ||
      decide (2 ^ 64 - 1 < w.packedKg + l.job.packedGrams / 1000)
    let posted := if l.job.code = 0 then x.ledger else x.ledger.post {
      entry := l.job.code, line := n,
      energy := l.job.energy, pulled := l.job.pulledGrams / 1000, packed := l.job.packedGrams / 1000,
      changeover := l.job.changeover, count := 1, time := now }
    (y.line n).job = {
      code := code, start := now, energy := 0, share := 0, changeover := 0,
      changeoverSeconds := 0, pulledGrams := l.job.pulledGrams % 1000,
      packedGrams := l.job.packedGrams % 1000, saturated := false } ∧
    { y.line n with job := l.job, jobSnap := l.jobSnap } = l ∧
    (l.jobSnap = none → y.lines.handOver = x.lines.handOver ++ [(.job, n)] ∧
      (y.line n).jobSnap = some {
        code := l.job.code, start := l.job.start, finish := now,
        energy := l.job.energy, share := l.job.share, changeover := l.job.changeover,
        changeoverSeconds := l.job.changeoverSeconds, pulledKg := l.job.pulledGrams / 1000,
        packedKg := l.job.packedGrams / 1000, saturated := l.job.saturated, merged := 0 }) ∧
    (∀ w, l.jobSnap = some w → y.lines.handOver = x.lines.handOver ∧
      (y.line n).jobSnap = some {
        code := w.code, start := w.start, finish := now,
        energy := min (w.energy + l.job.energy) (2 ^ 64 - 1), share := min (w.share + l.job.share) (2 ^ 64 - 1),
        changeover := min (w.changeover + l.job.changeover) (2 ^ 32 - 1),
        changeoverSeconds := min (w.changeoverSeconds + l.job.changeoverSeconds) (2 ^ 32 - 1),
        pulledKg := min (w.pulledKg + l.job.pulledGrams / 1000) (2 ^ 64 - 1),
        packedKg := min (w.packedKg + l.job.packedGrams / 1000) (2 ^ 64 - 1),
        saturated := w.saturated || l.job.saturated || passes w,
        merged := min (w.merged + 1) 255 }) ∧
    y.ledger = { posted with
      alerts := if (l.jobSnap).any passes then posted.alerts.latch .saturation else posted.alerts } ∧
    (∀ k, k ≠ n → y.line k = x.line k) ∧ y.channels = x.channels ∧ y.lines.clock = x.lines.clock ∧
    y.lines.bounds = x.lines.bounds

/-- A match delivers its event to the target line, or is a misfire, which latches MISFIRE and changes nothing
else: the line is IDLE, or a JOB_MARK goes to a FURNACE or carries code 0. JOB_MARK, LINE_STOP and LINE_START
change a line's state as the table of section 5.3 gives it; entering STOPPED or CHANGEOVER sets the open bin's
flag for it. The matches of a burst are delivered in increasing matcher number, each with the action, the target
line and, for a JOB_MARK, the job code and the unit weight of its matcher; the hand-overs that the writer queue
has room for are made before each (that they are made within the step is log entry 12). -/
def Obligations.MatchesDeliverEventsByTheStateTable : Prop :=
  (
    ∀ (l : Line) (code weight duration : Nat),
      let stopBin : Bin := { l.bin with flags := { l.bin.flags with stopped := true } }
      let changeBin : Bin := { l.bin with flags := { l.bin.flags with changeover := true } }
      (l.state = .running ∨ l.state = .changeover →
        l.jobMark code weight duration = if duration = 0
          then { l with jobCode := code, unitWeight := weight, state := .running, timer := none }
          else { l with jobCode := code, unitWeight := weight, state := .changeover, timer := some duration,
                        bin := changeBin }) ∧
      (l.state = .stopped → l.jobMark code weight duration =
        { l with jobCode := code, unitWeight := weight, changeoverPending := true }) ∧
      (l.state = .running → l.stop = { l with state := .stopped, timer := none, bin := stopBin }) ∧
      (l.state = .changeover → l.stop =
        { l with state := .stopped, timer := none, changeoverPending := true, bin := stopBin }) ∧
      (l.state = .stopped → l.stop = l) ∧
      (l.state = .running ∨ l.state = .changeover → l.start duration = l) ∧
      (l.state = .stopped → l.changeoverPending = false → l.start duration = { l with state := .running }) ∧
      (l.state = .stopped → l.changeoverPending = true → l.start duration = if duration = 0
        then { l with changeoverPending := false, state := .running, timer := none }
        else { l with changeoverPending := false, state := .changeover, timer := some duration,
                      bin := changeBin })) ∧
  (
    ∀ (m : Image) (n : Fin 16) (e : LineEvent) (x : Books),
      let misfire := (x.line n).state = .idle ∨
        ∃ code weight, e = .jobMark code weight ∧ (m.kind n = .furnace ∨ code = 0)
      (misfire → x.deliver m n e = { x with ledger := { x.ledger with
        alerts := x.ledger.alerts.latch .misfire } }) ∧
      (¬misfire → x.deliver m n e = x.event m n e) ∧
      (∀ code weight, x.event m n (.jobMark code weight) =
        (let y := x.closeJob n code
         { y with lines := { y.lines with
             lines := y.lines.lines.set n ((y.line n).jobMark code weight (m.changeoverDuration n)) } })) ∧
      x.event m n .lineStop = { x with lines := { x.lines with
        lines := x.lines.lines.set n (x.line n).stop } } ∧
      x.event m n .lineStart = { x with lines := { x.lines with
        lines := x.lines.lines.set n ((x.line n).start (m.changeoverDuration n)) } }) ∧
  (∀ (m : Image) (a : Nat) (ws : List WriteWord) (s : State),
    s.matchNotice m a ws =
      ((List.finRange 16).filter (fun i => (m.matcher i).matched a ws)).foldl (fun s i =>
        let t := m.matcher i
        match t.action with
        | .jobMark => s.deliverMatch m t.target (.jobMark ((wordAt ws t.codeOffset).toNat % 1024)
            ((wordAt ws t.weightOffset).toNat % 65536))
        | .lineStop => s.deliverMatch m t.target .lineStop
        | .lineStart => s.deliverMatch m t.target .lineStart
        | .invalid => s) s) ∧
  (∀ (m : Image) (n : Fin 16) (e : LineEvent) (s : State),
    let u := s.handOvers 16
    let x := u.books.deliver m n e
    s.deliverMatch m n e = { u with channels := x.channels, lines := x.lines, tally := x.ledger.tally,
                                    alerts := x.ledger.alerts }) ∧
  (∀ (k : Nat) (s : State),
    s.handOvers 0 = s ∧ (s.lines.handOver = [] ∨ 16 ≤ s.writer.queue.length → s.handOvers k = s) ∧
    (s.lines.handOver ≠ [] → s.writer.queue.length < 16 → s.handOvers (k + 1) = s.handOverHead.handOvers k ∧
      (s.inReset = false → ∃ m, exec .handOver s = .next
        (let u := s.handOverHead
         { u with alerts := { u.alerts with mirror := m } })))) ∧
  (∀ (ws : List WriteWord) (k : Nat), wordAt ws k = match ws[k]? with
    | some w => w.data
    | none => 0)

/-- A credit that reaches a line in RUNNING, CHANGEOVER or STOPPED adds to the open bin by its quantity and
marks, saturating, and for a FORMING line to the job accumulator; an IDLE line takes none. An addition that passes
its field's width sets the bin's flag and the summary-saturation flag, or the job's flag, and latches SATURATION.
A reprime notice raises the open bin's reprime count, saturating at 255; that a saturating count sets the flags
and latches SATURATION too is deduced (log entry 13). -/
def Obligations.CreditsAddByQuantityAndMark : Prop :=
  (∀ (kind : LineKind) (c : Credit) (l : Line),
    let r := (l.credit kind c).1
    let energy := if c.quantity = .thermal ∨ c.quantity = .electric ∨ c.quantity = .auxiliary
      then c.amount else 0
    let top32 := 4294967295
    let add (q : Quantity) : Nat := if c.quantity = q then c.amount else 0
    let carried := if c.carriedIn then energy else 0
    let estimated := if c.estimated then energy else 0
    let changeover := if l.state = .changeover then energy else 0
    let binPasses := decide (top32 < l.bin.thermal + add .thermal) ||
      decide (top32 < l.bin.electric + add .electric) || decide (top32 < l.bin.auxiliary + add .auxiliary) ||
      decide (top32 < l.bin.carriedIn + carried) || decide (top32 < l.bin.estimated + estimated) ||
      decide (top32 < l.bin.changeover + changeover) || decide (top32 < l.bin.pulledGrams + add .pulled) ||
      decide (top32 < l.bin.packedGrams + add .packed) || decide (65535 < l.bin.unweighed + add .unweighed)
    let jobPasses := decide (2 ^ 64 - 1 < l.job.energy + energy) ||
      decide (top32 < l.job.changeover + changeover) ||
      decide (2 ^ 64 - 1 < l.job.pulledGrams + add .pulled) ||
      decide (2 ^ 64 - 1 < l.job.packedGrams + add .packed)
    (l.state = .idle → l.credit kind c = (l, false)) ∧
    (l.state ≠ .idle →
      r.bin.thermal = min (l.bin.thermal + if c.quantity = .thermal then c.amount else 0) top32 ∧
      r.bin.electric = min (l.bin.electric + if c.quantity = .electric then c.amount else 0) top32 ∧
      r.bin.auxiliary = min (l.bin.auxiliary + if c.quantity = .auxiliary then c.amount else 0) top32 ∧
      r.bin.carriedIn = min (l.bin.carriedIn + if c.carriedIn then energy else 0) top32 ∧
      r.bin.estimated = min (l.bin.estimated + if c.estimated then energy else 0) top32 ∧
      r.bin.changeover = min (l.bin.changeover + if l.state = .changeover then energy else 0) top32 ∧
      r.bin.pulledGrams = min (l.bin.pulledGrams + if c.quantity = .pulled then c.amount else 0) top32 ∧
      r.bin.packedGrams = min (l.bin.packedGrams + if c.quantity = .packed then c.amount else 0) top32 ∧
      r.bin.unweighed = min (l.bin.unweighed + if c.quantity = .unweighed then c.amount else 0) 65535 ∧
      r.bin.start = l.bin.start ∧ r.bin.stoppedSeconds = l.bin.stoppedSeconds ∧
      r.bin.reprimes = l.bin.reprimes ∧ r.bin.flags.stopped = l.bin.flags.stopped ∧
      r.bin.flags.changeover = l.bin.flags.changeover ∧
      r.bin.flags.saturated = (l.bin.flags.saturated || binPasses) ∧
      r.summarySaturation = (l.summarySaturation || binPasses) ∧
      { r with bin := l.bin, job := l.job, summarySaturation := l.summarySaturation } = l ∧
      (kind ≠ .forming → r.job = l.job ∧ (l.credit kind c).2 = binPasses) ∧
      (kind = .forming →
        r.job.energy = min (l.job.energy + energy) (2 ^ 64 - 1) ∧
        r.job.changeover = min (l.job.changeover + if l.state = .changeover then energy else 0) top32 ∧
        r.job.pulledGrams =
          min (l.job.pulledGrams + if c.quantity = .pulled then c.amount else 0) (2 ^ 64 - 1) ∧
        r.job.packedGrams =
          min (l.job.packedGrams + if c.quantity = .packed then c.amount else 0) (2 ^ 64 - 1) ∧
        r.job.share = l.job.share ∧ r.job.changeoverSeconds = l.job.changeoverSeconds ∧
        r.job.code = l.job.code ∧ r.job.start = l.job.start ∧
        r.job.saturated = (l.job.saturated || jobPasses) ∧
        (l.credit kind c).2 = (binPasses || jobPasses)) ∧
      ((l.credit kind c).2 = true → r.bin.flags.saturated = true ∨ r.job.saturated = true))) ∧
  (∀ l : Line, l.reprimeNotice =
    (let full := decide (255 < l.bin.reprimes + 1)
     ({ l with
        bin := { l.bin with
          reprimes := min (l.bin.reprimes + 1) 255,
          flags := { l.bin.flags with saturated := l.bin.flags.saturated || full } },
        summarySaturation := l.summarySaturation || full }, full))) ∧
  (∀ (m : Image) (n : Fin 16) (c : Credit) (x : Books),
    let r := (x.line n).credit (m.kind n) c
    x.credit m n c = { x with
      lines := { x.lines with lines := x.lines.lines.set n r.1 },
      ledger := { x.ledger with
        alerts := if r.2 then x.ledger.alerts.latch .saturation else x.ledger.alerts } }) ∧
  (∀ (n : Fin 16) (x : Books),
    let r := (x.line n).reprimeNotice
    x.reprimeNotice n = { x with
      lines := { x.lines with lines := x.lines.lines.set n r.1 },
      ledger := { x.ledger with
        alerts := if r.2 then x.ledger.alerts.latch .saturation else x.ledger.alerts } })

/-- A write of the clock word forms the new clock from the written bytes; an equal value does nothing; another
value is taken, latches CLOCK_STEP and renews every head's boundaries. A backward step closes no group. A forward
step closes, at the new clock and in increasing head number, each group whose bin boundary it reaches, with its
epoch where that boundary is reached too; the lines of other groups stay. No timer and no pulse is reached. Which
byte enable goes with which byte is presumed (log entry 2); the premise on closes and hand-overs is log entry 12. -/
def Obligations.ClockWordWriteStepsTheClock : Prop :=
  (∀ (u : Setup) (i a : Nat) (ws : List WriteWord) (w : WriteWord), a % 4 = 0 → i < 2048 →
    (u.noticeWord i a ws = some w ↔ ∃ k, ws[k]? = some w ∧ a + 4 * k = u.blockAddress + 4 * i)) ∧
  ∀ (s : State) (n : Notice) (w : WriteWord) (v : Word), s.inReset = false → s.pass.notice = some n →
    n.clockDue = true → n.captureDue = false → s.closesTaken = true →
    s.setup.noticeWord 4 n.address n.words = some w → v = mergeBytes s.lines.clock w →
    let taken : State := { s with pass := { s.pass with notice := { n with clockDue := false }.settled } }
    let heads := (List.finRange 16).filter (fun h => (s.lines.bounds[h]).any (fun b => decide (b.bin ≤ v.toNat)))
    let x := heads.foldl
      (fun x h => x.closeGroup s.cfg h ((s.lines.bounds[h]).any (fun b => decide (b.epoch ≤ v.toNat))))
      { s.books with lines := { s.lines with clock := v } }
    ∃ t, exec .clockWordWrite s = .next t ∧
    (v = s.lines.clock → ∃ m, t = { taken with alerts := { s.alerts with mirror := m } }) ∧
    (v.toNat < s.lines.clock.toNat → ∃ m, t = { taken with
      lines := { s.lines with clock := v, bounds := t.lines.bounds },
      alerts := { s.alerts.latch .clockStep with mirror := m } }) ∧
    (s.lines.clock.toNat < v.toNat → (∃ m, t = { taken with
        channels := x.channels, lines := { x.lines with bounds := t.lines.bounds }, tally := x.ledger.tally,
        alerts := { x.ledger.alerts.latch .clockStep with mirror := m } }) ∧
      (∀ h ∈ heads, ∀ k ∈ s.cfg.members h, (t.lines.lines[k]).bin.start = v.toNat) ∧
      (∀ k : Fin 16, (∀ h ∈ heads, k ∉ s.cfg.members h) → t.lines.lines[k] = s.lines.lines[k])) ∧
    (v ≠ s.lines.clock → t.alerts.has .clockStep = true ∧
      ∀ h : Fin 16, t.lines.bounds[h] = if s.cfg.isHead h then some (s.cfg.boundAt h v.toNat) else none) ∧
    t.lines.clock = v ∧ t.lines.pulses = s.lines.pulses ∧ t.lines.advancesDue = s.lines.advancesDue ∧
    t.alerts.reportTimer = s.alerts.reportTimer ∧
    (∀ e : Fin 256, (t.channels.meters[e]).timer = (s.channels.meters[e]).timer) ∧
    (∀ k : Fin 16, (t.lines.lines[k]).timer = (s.lines.lines[k]).timer ∧
      (t.lines.lines[k]).state = (s.lines.lines[k]).state)

/-! ### The memory path -/

/-- A write burst presented to the open port: malformed, it is answered with ERROR; under the four conditions of
the hold test it waits with the timer at the hold limit and HOLDING raised; otherwise it is taken into the slot,
or, where it touches a guarded region under REFUSE, answered with ERROR; GUARD is latched where it touches one.
While a setup is installed and the part is ACTIVE or APPLYING the guard list holds the status block and, of
every ring in force, the producer index word and the record slots 1 to size; under a validated setup it holds
nothing of the consumer index word, of words 2 to 15 of slot 0, of the setup block and of the tally table;
otherwise it is empty (for an apply from UNSET this is deduced, log entry 21). The port is open, and UREADY is
asserted, while the slot is empty, no burst waits and the last read observation is acted on. -/
def Obligations.UpstreamWriteIsHeldGuardedOrTaken : Prop :=
  (∀ s : State,
    let vacant := s.pass.slot = none ∧ s.pass.heldWrite = none ∧ s.pass.heldRead = none ∧ s.pass.observation = none
    (s.portOpen = true ↔ s.steady = true ∧ vacant) ∧ (s.uready = true ↔ s.inReset = false ∧ vacant)) ∧
  (∀ (a : Word) (ws : List WriteWord) (s : State), burstWellFormed a ws.length = true →
    s.portOpen = true →
    let malformed := 2 ^ 32 < a.toNat + 4 * ws.length
    let held := (s.setup.part = .active ∨ ∃ p, s.setup.part = .applying p) ∧
      (∃ i : Fin 4, (s.cfg.window i).holds a.toNat = true) ∧ s.intake.holdRequest = true ∧
      s.pass.spilling = false
    let touches := ∃ k, k < ws.length ∧ s.guarded (a.toNat + 4 * k) = true
    (malformed → ∃ m, exec (.upstreamWrite a ws) s = .next { s with
      pass := { s.pass with lastAnswer := some .error }, alerts := { s.alerts with mirror := m } }) ∧
    (¬malformed → held → ∃ m, exec (.upstreamWrite a ws) s = .next { s with
      pass := { s.pass with heldWrite := some (a.toNat, ws), holdTimer := some s.cfg.holdLimit,
                            releaseDue := false },
      alerts := { s.alerts.rise .holding with mirror := m } }) ∧
    (¬malformed → ¬held → ¬touches → ∃ m, exec (.upstreamWrite a ws) s = .next { s with
      pass := { s.pass with slot := some (.write a.toNat ws) }, alerts := { s.alerts with mirror := m } }) ∧
    (¬malformed → ¬held → touches → s.cfg.get 6 ≠ 1 → ∃ m, exec (.upstreamWrite a ws) s = .next { s with
      pass := { s.pass with slot := some (.write a.toNat ws) },
      alerts := { s.alerts.latch .guard with mirror := m } }) ∧
    (¬malformed → ¬held → touches → s.cfg.get 6 = 1 → ∃ m, exec (.upstreamWrite a ws) s = .next { s with
      pass := { s.pass with lastAnswer := some .error },
      alerts := { s.alerts.latch .guard with mirror := m } })) ∧
  (∀ (s : State) (m : Image) (a : Nat), s.setup.active = some m →
    s.setup.part = .active ∨ (∃ p, s.setup.part = .applying p) →
    (s.guarded a = true ↔ (s.setup.statusAddress ≤ a ∧ a < s.setup.statusAddress + 256) ∨
      ∃ n : Fin 16, m.kind n ≠ .none ∧ ((m.ringBase n ≤ a ∧ a < m.ringBase n + 4) ∨
        ∃ slot, 1 ≤ slot ∧ slot ≤ m.ringSize n ∧
          m.ringBase n + 64 * slot ≤ a ∧ a < m.ringBase n + 64 * slot + 64)) ∧
    (m.validate s.setup.blockAddress = none →
      (∃ n : Fin 16, m.kind n ≠ .none ∧ m.ringBase n + 4 ≤ a ∧ a < m.ringBase n + 64) ∨
      (s.setup.blockAddress ≤ a ∧ a < s.setup.blockAddress + 8192) ∨
      (m.tallyBase ≤ a ∧ a < m.tallyBase + 33280) → s.guarded a = false)) ∧
  (∀ (s : State) (a : Nat), s.setup.part = .fetching ∨ s.setup.part = .unset ∨ s.setup.active = none →
    s.guarded a = false)

/-- A read burst presented to the open port: malformed, it is answered with ERROR; while the read-hold flag is
set and it includes the latched-alert word, it waits; otherwise it takes the slot. A waiting read takes the slot
once the flag is clear. -/
def Obligations.UpstreamReadWaitsOnTheReadHold : Prop :=
  (∀ (a : Word) (es : List (BitVec 4)) (s : State), burstWellFormed a es.length = true →
    s.portOpen = true →
    let malformed := 2 ^ 32 < a.toNat + 4 * es.length
    let waits := s.alerts.readHold = true ∧ a.toNat ≤ s.setup.statusAddress ∧
      s.setup.statusAddress < a.toNat + 4 * es.length
    (malformed → ∃ m, exec (.upstreamRead a es) s = .next { s with
      pass := { s.pass with lastAnswer := some .error }, alerts := { s.alerts with mirror := m } }) ∧
    (¬malformed → waits → ∃ m, exec (.upstreamRead a es) s = .next { s with
      pass := { s.pass with heldRead := some (a.toNat, es) }, alerts := { s.alerts with mirror := m } }) ∧
    (¬malformed → ¬waits → ∃ m, exec (.upstreamRead a es) s = .next { s with
      pass := { s.pass with slot := some (.read a.toNat es) }, alerts := { s.alerts with mirror := m } })) ∧
  (∀ (a : Nat) (es : List (BitVec 4)) (s : State), s.steady = true → s.pass.heldRead = some (a, es) →
    s.alerts.readHold = false → ∃ m, exec .readHoldRelease s = .next { s with
      pass := { s.pass with heldRead := none, slot := some (.read a es) },
      alerts := { s.alerts with mirror := m } })

/-- A hold ends in one of two ways: by its release, which accepts the waiting burst, or by the expiry of its
timer, which begins spill, abandons every partial record and accepts the burst. Either way the timer is stopped
and HOLDING falls. Each partial record abandoned is counted as one SPILLED. The burst takes the slot; one that
touches a guarded region latches GUARD, and under REFUSE it is answered ERROR and the slot stays empty. The port,
the run count and the turn stay. The mark of the release is the model's (log entry 5). -/
def Obligations.HoldEndsByReleaseOrSpill : Prop :=
  (∀ (a : Nat) (ws : List WriteWord) (s : State),
    (s.touchesGuard a ws.length = true ↔ ∃ k, k < ws.length ∧ s.guarded (a + 4 * k) = true) ∧
    s.acceptWrite a ws =
      if s.touchesGuard a ws.length = false then { s with pass := { s.pass with slot := some (.write a ws) } }
      else if s.cfg.get 6 = 1 then
        { s with pass := { s.pass with lastAnswer := some .error }, alerts := s.alerts.latch .guard }
      else { s with pass := { s.pass with slot := some (.write a ws) }, alerts := s.alerts.latch .guard }) ∧
  (∀ (a : Nat) (ws : List WriteWord) (s : State), s.steady = true → s.pass.heldWrite = some (a, ws) →
    s.pass.releaseDue = true → ∃ m, exec .holdRelease s = .next
      (let u := State.acceptWrite a ws { s with
         pass := { s.pass with heldWrite := none, holdTimer := none, releaseDue := false },
         alerts := s.alerts.fall s.cfg .holding }
       { u with alerts := { u.alerts with mirror := m } })) ∧
  (∀ (a : Nat) (ws : List WriteWord) (s : State), s.steady = true → s.pass.heldWrite = some (a, ws) →
    s.pass.holdTimer = some 0 → s.pass.releaseDue = false →
    let touches := s.touchesGuard a ws.length = true
    let refused := touches ∧ s.cfg.get 6 = 1
    let partials := (List.finRange 4).filter (fun i => (s.intake.windows[i]).partialRecord.isSome)
    let spilled := partials.foldl (fun b _ => b.report s.cfg .spilled)
      ((s.alerts.fall s.cfg .holding).rise .spilling)
    ∃ t m, exec .holdLimitExpiry s = .next t ∧
    t.pass = { s.pass with
      heldWrite := none, holdTimer := none, spilling := true,
      slot := if refused then s.pass.slot else some (.write a ws),
      lastAnswer := if refused then some .error else s.pass.lastAnswer } ∧
    t.alerts = { (if touches then spilled.latch .guard else spilled) with mirror := m } ∧
    t.pass.heldWrite = none ∧ t.pass.holdTimer = none ∧ t.pass.spilling = true ∧
    (∀ i : Fin 4, (t.intake.windows[i]).partialRecord = none ∧
      (t.intake.windows[i]).inject = (s.intake.windows[i]).inject ∧
      ((s.intake.windows[i]).partialRecord.isSome = true → (t.intake.windows[i]).timer = none)) ∧
    t.intake.queue = s.intake.queue ∧ t.intake.holdRequest = s.intake.holdRequest ∧
    t.intake.accepted = s.intake.accepted ∧ t.alerts.has .spillEdge = true ∧
    (s.cfg.holdEdgeSelect = 2 → t.alerts.has .holdEdge = true) ∧
    (s.touchesGuard a ws.length = false → t.pass.slot = some (.write a ws)) ∧
    (s.touchesGuard a ws.length = true → t.alerts.has .guard = true) ∧
    t.channels = s.channels ∧ t.lines = s.lines ∧ t.writer = s.writer ∧ t.tally = s.tally ∧
    t.setup = s.setup ∧ t.pending = s.pending ∧ t.inReset = s.inReset)

/-- What the Tally Engine and the fetch request (R128, R129, R146), when a conditional write is withdrawn (R15), and
the arbiter's decision: passthrough first within the run limit of four, internal requests in the order fetch,
status mirror, then Tally Engine and Result Writer by the internal turn; the run count follows the table; with no
request nothing is granted. -/
def Obligations.ArbiterGrantsByRunCountAndTurn : Prop :=
  (∀ s : State,
    (s.tallyRequest = some .reserveRead ↔ s.tally.state = .readWait ∧ s.tally.queue ≠ []) ∧
    (s.tallyRequest = some .conditionalWrite ↔
      s.tally.state = .writeWait ∧ s.tally.queue ≠ [] ∧ s.tally.reservation ≠ none) ∧
    (∀ c, s.tallyRequest = some c → c = .reserveRead ∨ c = .conditionalWrite) ∧
    (s.fetchRequest = true ↔ s.setup.part = .fetching ∧ s.setup.fetchPosition < 128) ∧
    (s.withdraws = true ↔ ∃ n r, s.choose s.tallyRequest = some (.tally .conditionalWrite, n) ∧
      s.tally.reservation = some r ∧ r.intact = false)) ∧
  (∀ (tc : Option Client) (s : State),
    (s.pass.slot.isSome = true → s.internalChoice tc = none → s.choose tc = some (.passthrough, 0)) ∧
    (∀ c, s.pass.slot.isSome = true → s.internalChoice tc = some c → s.pass.runCount < 4 →
      s.choose tc = some (.passthrough, s.pass.runCount + 1)) ∧
    (∀ c, s.pass.slot.isSome = true → s.internalChoice tc = some c → ¬ s.pass.runCount < 4 →
      s.choose tc = some (c, 0)) ∧
    (∀ c, s.pass.slot = none → s.internalChoice tc = some c → s.choose tc = some (c, 0)) ∧
    (s.pass.slot = none → s.internalChoice tc = none → s.choose tc = none) ∧
    (s.fetchRequest = true → s.internalChoice tc = some .fetch) ∧
    (∀ g, s.fetchRequest = false → s.alerts.mirror = some g → s.internalChoice tc = some (.mirror g)) ∧
    (∀ c, s.fetchRequest = false → s.alerts.mirror = none → tc = some c →
      s.pass.turn = .tallyEngine ∨ s.writerRequest = none → s.internalChoice tc = some (.tally c)) ∧
    (∀ c txn, s.fetchRequest = false → s.alerts.mirror = none → s.writerRequest = some (c, txn) →
      s.pass.turn = .resultWriter ∨ tc = none → s.internalChoice tc = some (.writer c txn))) ∧
  (∀ (s : State) (c : Choice) (n : Nat), s.steady = true → s.pass.port = .free → s.withdraws = false →
    s.choose s.tallyRequest = some (c, n) → ∃ m, exec .arbiterDecision s = .next
      (let u := State.grant c { s with pass := { s.pass with runCount := n } }
       { u with alerts := { u.alerts with mirror := m } })) ∧
  (∀ s : State, s.steady = true → s.pass.port = .free → s.withdraws = false →
    s.choose s.tallyRequest = none →
    ∃ m, exec .arbiterDecision s = .next { s with alerts := { s.alerts with mirror := m } })

/-- The grant of a passthrough transaction puts it on the port and leaves it in the slot. A write issues its
notice: in a part that is ACTIVE or APPLYING the Intake Unit takes it, with the spill mark, and then the matchers,
whose events reach the lines, the tally queue and, by the hand-overs before them, the writer queue; a burst
outside every window leaves the Intake Unit as it was, and one that carries the spill mark is counted as one
SPILLED and not examined; a reservation that the write touches is broken; the Setup Unit and the Result Writer owe
the deliveries that its words call for: the capture for a word of the setup block, the clock, generation and
command words for an enabled byte of theirs, the consumer indices for a word at one of them (R115, R144, R188). A
write touches a reservation by an enabled byte of the entry's 32 bytes (R130). In another part state the Intake
Unit, the lines and the channels stay. A read does nothing else. -/
def Obligations.PassthroughWriteGrantIssuesANotice : Prop :=
  (∀ (s : State) (a : Nat) (ws : List WriteWord), a % 4 = 0 →
    let n := s.noticeOf a ws
    let word (i : Nat) : Prop := ∃ k w, ws[k]? = some w ∧ a + 4 * k = s.setup.blockAddress + 4 * i ∧ w.enables ≠ 0
    n.address = a ∧ n.words = ws ∧
    (n.captureDue = true ↔ ∃ k, k < ws.length ∧ s.setup.blockAddress ≤ a + 4 * k ∧
      a + 4 * k < s.setup.blockAddress + 8192) ∧
    (n.generationDue = true ↔ word 1) ∧ (n.commandDue = true ↔ word 2) ∧ (n.clockDue = true ↔ word 4) ∧
    (n.consumerDue = true ↔ ∃ k l, k < ws.length ∧ s.cfg.kind l ≠ .none ∧ a + 4 * k = s.cfg.ringBase l + 4)) ∧
  (∀ (base a : Nat) (ws : List WriteWord), noticeTouches base a ws = true ↔
    ∃ k w, ws[k]? = some w ∧ base ≤ a + 4 * k ∧ a + 4 * k < base + 32 ∧ w.enables ≠ 0) ∧
  (∀ n : Notice, n.settled = if n.captureDue = true ∨ n.clockDue = true ∨ n.generationDue = true ∨
    n.commandDue = true ∨ n.consumerDue = true then some n else none) ∧
  (∀ (s : State) (a : Nat) (ws : List WriteWord) (n : Nat), s.steady = true → s.pass.port = .free →
    s.withdraws = false → s.pass.slot = some (.write a ws) →
    s.choose s.tallyRequest = some (.passthrough, n) →
    ∃ t, exec .arbiterDecision s = .next t ∧
    t.pass = { s.pass with port := .passthrough, runCount := n, notice := (s.noticeOf a ws).settled } ∧
    t.setup = s.setup ∧ t.channels = s.channels ∧ t.pending = s.pending ∧ t.inReset = s.inReset ∧
    t.writer.rings = s.writer.rings ∧ t.writer.step = s.writer.step ∧
    t.lines.clock = s.lines.clock ∧ t.lines.bounds = s.lines.bounds ∧
    (∀ r, s.tally.reservation = some r →
      noticeTouches (s.cfg.tallyBase + 32 * r.entry) a ws = true →
      t.tally.reservation = some { r with intact := false }) ∧
    (∀ r, s.tally.reservation = some r →
      noticeTouches (s.cfg.tallyBase + 32 * r.entry) a ws = false → t.tally.reservation = some r) ∧
    (s.tally.reservation = none → t.tally.reservation = none) ∧
    t.tally.state = s.tally.state ∧ t.tally.losses = s.tally.losses ∧ t.tally.computed = s.tally.computed ∧
    t.tally.misses = s.tally.misses ∧
    (s.setup.part = .fetching ∨ s.setup.part = .unset ∨ s.cfg.windowAt a = none ∨ s.pass.spilling = true →
      t.intake = s.intake) ∧
    (s.setup.part = .fetching ∨ s.setup.part = .unset → t.lines = s.lines ∧ t.tally.queue = s.tally.queue ∧
      t.writer = s.writer) ∧
    (s.setup.part = .active ∨ (∃ p, s.setup.part = .applying p) →
      let d : Desk := Desk.notice s.cfg s.pass.spilling a ws { intake := s.intake, alerts := s.alerts }
      let x : State := State.matchNotice s.cfg a ws { s with intake := d.intake, alerts := d.alerts }
      t.intake = d.intake ∧ t.lines = x.lines ∧ t.writer = x.writer ∧ t.tally.queue = x.tally.queue ∧
      t.tally.lost = x.tally.lost ∧ t.alerts.latched = x.alerts.latched ∧
      t.alerts.counters = x.alerts.counters ∧
      (s.cfg.windowAt a ≠ none → s.pass.spilling = true → d.alerts = s.alerts.report s.cfg .spilled))) ∧
  (∀ (s : State) (a : Nat) (es : List (BitVec 4)) (n : Nat), s.steady = true → s.pass.port = .free →
    s.withdraws = false → s.pass.slot = some (.read a es) →
    s.choose s.tallyRequest = some (.passthrough, n) →
    ∃ m, exec .arbiterDecision s = .next { s with
      pass := { s.pass with port := .passthrough, runCount := n }, alerts := { s.alerts with mirror := m } })

/-- What each internal grant puts on the port and changes: the fetch burst; the mirror write of a whole group at
its first status word, whose owed flag clears, with the read-hold flag for the latched group; the 8-word
reserve-read, which sets the reservation; the conditional write, which ends it; the record write, index write and
initialising write. Without a record in hand the Result Writer requests the initialising write of the lowest line
that is owed one: two words of zero to its index slot. A retry requests the same write once more. That a record in
hand is requested before an owed initialising write is the model's choice (log entry 32); that an owed
initialising write is requested whatever the part state, where R119 says ACTIVE, is deduced (log entry 23). -/
def Obligations.InternalGrantsPutTheRequestOnThePort : Prop :=
  [Group.latched, .realTime, .applyResult, .commandResult, .counters, .lostTally, .report].map Group.first =
    [0, 1, 2, 4, 6, 10, 16] ∧
  (∀ (o : Owed) (g h : Group), (o.without g).has h = (o.has h && decide (h ≠ g))) ∧
  (∀ o : Owed, [Group.latched, .realTime, .applyResult, .commandResult, .counters, .lostTally, .report].map o.has =
    [o.latched, o.realTime, o.applyResult, o.commandResult, o.counters, o.lostTally, o.report]) ∧
  (∀ d : Word, fullWord d = { data := d, enables := 15 }) ∧
  ∀ s : State,
    s.grant .fetch = { s with
      pass := { s.pass with
        port := .internal .fetch
          (.read (s.setup.blockAddress + 64 * s.setup.fetchPosition) (List.replicate 16 0xF#4)) } } ∧
    (∀ g, s.grant (.mirror g) = { s with
      pass := { s.pass with
        port := .internal (.mirror g)
          (.write (s.setup.statusAddress + 4 * g.first) ((s.groupWords g).map fullWord)) },
      alerts := { s.alerts with
        owed := s.alerts.owed.without g,
        readHold := if g = .latched then false else s.alerts.readHold } }) ∧
    (∀ u rest, s.tally.queue = u :: rest → s.grant (.tally .reserveRead) = { s with
      pass := { s.pass with
        turn := .resultWriter,
        port := .internal .reserveRead
          (.read (s.cfg.tallyBase + 32 * u.entry) (List.replicate 8 0xF#4)) },
      tally := { s.tally with
        state := .readOut, reservation := some { entry := u.entry, intact := true } } }) ∧
    (∀ u rest ws, s.tally.queue = u :: rest → s.tally.computed = some ws →
      s.grant (.tally .conditionalWrite) = { s with
        pass := { s.pass with
          turn := .resultWriter,
          port := .internal .conditionalWrite
            (.write (s.cfg.tallyBase + 32 * u.entry) (ws.map fullWord)) },
        tally := { s.tally with reservation := none } }) ∧
    (∀ r rest, s.writer.queue = r :: rest →
      s.writer.step = some .recordWrite ∨ s.writer.step = some .recordRetry →
      s.writerRequest = some (.recordWrite, .write
        (s.cfg.ringBase r.line + 64 * (1 + (s.writer.rings[r.line]).producer.toNat % s.cfg.ringSize r.line))
        (r.words.map fullWord))) ∧
    (∀ r rest, s.writer.queue = r :: rest →
      s.writer.step = some .indexWrite ∨ s.writer.step = some .indexRetry →
      s.writerRequest = some (.indexWrite, .write (s.cfg.ringBase r.line)
        [fullWord (((s.writer.rings[r.line]).producer + 1).zeroExtend 32)])) ∧
    (∀ n : Fin 16, s.writer.step = none → (s.writer.rings[n]).initOwed = true →
      (∀ k : Fin 16, k < n → (s.writer.rings[k]).initOwed = false) →
      s.writerRequest = some (.initialisingWrite n, .write (s.cfg.ringBase n) [fullWord 0, fullWord 0])) ∧
    (s.writer.step = none → (∀ k : Fin 16, (s.writer.rings[k]).initOwed = false) → s.writerRequest = none) ∧
    (∀ txn, s.grant (.writer .recordWrite txn) = { s with
      pass := { s.pass with turn := .tallyEngine, port := .internal .recordWrite txn } }) ∧
    (∀ txn, s.grant (.writer .indexWrite txn) = { s with
      pass := { s.pass with turn := .tallyEngine, port := .internal .indexWrite txn } }) ∧
    (∀ n txn, s.grant (.writer (.initialisingWrite n) txn) = { s with
      pass := { s.pass with turn := .tallyEngine, port := .internal (.initialisingWrite n) txn },
      writer := { s.writer with
        rings := s.writer.rings.set n { s.writer.rings[n] with initOwed := false, shadow := 0 } } })

/-- A decision that would grant a conditional write whose reservation is broken withdraws it instead: the
reservation ends, one loss is counted and reported as TALLY_LOSS, and below eight losses the engine backs off for a
number of fine intervals within the range for that loss; the eighth loss sends the update to the miss list with
CONTENTION and its locked mark. The decision is then taken among the other requests, so that it grants neither a
conditional write nor a reserve-read. The backoff itself is a free value (log entry 1). That the loss count and the
locked flag are cleared after the eighth loss, and that the computed entry is dropped at a loss, is deduced (log
entry 25). -/
def Obligations.BrokenReservationIsWithdrawnWithALoss : Prop :=
  (∀ s : State, (s.withdraws = true ↔ ∃ n r, s.choose s.tallyRequest = some (.tally .conditionalWrite, n) ∧
      s.tally.reservation = some r ∧ r.intact = false)) ∧
  (∀ s : State, (s.tallyRequest = some .conditionalWrite ↔
    s.tally.state = .writeWait ∧ s.tally.queue ≠ [] ∧ s.tally.reservation ≠ none)) ∧
  ∀ s : State, s.steady = true → s.pass.port = .free → s.withdraws = true →
    let decided (v : State) : State := match v.choose none with
      | some (c, n) => State.grant c { v with pass := { v.pass with runCount := n } }
      | none => v
    let reported := s.alerts.report s.cfg .tallyLoss
    ∃ t, exec .arbiterDecision s = .next t ∧ t.tally.reservation = none ∧
    (∀ txn, t.pass.port ≠ .internal .conditionalWrite txn) ∧
    (∀ txn, t.pass.port ≠ .internal .reserveRead txn) ∧
    (s.tally.losses + 1 < 8 → t.tally.losses = s.tally.losses + 1 ∧ t.tally.state = .backoff ∧
      ∃ k m, t.tally.backoff = some k ∧ k < 2 ^ min (s.tally.losses + 1) 5 ∧
        t = (let u := decided { s with
               tally := { s.tally with
                 losses := s.tally.losses + 1, computed := none, reservation := none, state := .backoff,
                 backoff := some k, draws := s.tally.draws + 1 },
               alerts := reported }
             { u with alerts := { u.alerts with mirror := m } })) ∧
    (¬ s.tally.losses + 1 < 8 → t.tally.losses = 0 ∧ t.tally.state = .idle ∧ t.tally.backoff = none ∧
      t.alerts.has .tallyMiss = true ∧
      ∃ u rest m, s.tally.queue = u :: rest ∧
        t = (let x : Ledger := Ledger.miss .contention s.tally.lockedLoss u
               { tally := { s.tally with
                   queue := rest, state := .idle, losses := 0, lockedLoss := false, computed := none,
                   reservation := none, backoff := none },
                 alerts := reported }
             let u := decided { s with tally := x.tally, alerts := x.alerts }
             { u with alerts := { u.alerts with mirror := m } })) ∧
    t.pending = s.pending ∧ t.inReset = s.inReset ∧ t.setup = s.setup

/-- The memory's response to a passthrough transaction goes upstream unchanged and the slot empties; an OK read
that includes word 0 of the status block leaves that word's data as the observation. Nothing else changes. -/
def Obligations.PassthroughResponseGoesUpstream : Prop :=
  (∀ (s : State) (a : Nat) (es : List (BitVec 4)) (data : List Word), s.steady = true →
    s.pass.port = .passthrough → s.pass.slot = some (.read a es) → data.length = es.length →
    ∃ m, exec (.passthroughResponse (.ok data)) s = .next { s with
      pass := { s.pass with
        slot := none, port := .free, lastAnswer := some (.ok data),
        observation :=
          if a ≤ s.setup.statusAddress ∧ s.setup.statusAddress < a + 4 * data.length
          then data[(s.setup.statusAddress - a) / 4]? else none },
      alerts := { s.alerts with mirror := m } }) ∧
  (∀ (s : State) (a : Nat) (ws : List WriteWord), s.steady = true → s.pass.port = .passthrough →
    s.pass.slot = some (.write a ws) → ∃ m, exec (.passthroughResponse (.ok [])) s = .next { s with
      pass := { s.pass with slot := none, port := .free, lastAnswer := some (.ok []), observation := none },
      alerts := { s.alerts with mirror := m } }) ∧
  (∀ (s : State) (txn : Txn), s.steady = true → s.pass.port = .passthrough → s.pass.slot = some txn →
    ∃ m, exec (.passthroughResponse .error) s = .next { s with
      pass := { s.pass with slot := none, port := .free, lastAnswer := some .error, observation := none },
      alerts := { s.alerts with mirror := m } })

/-! ### Deliveries of a notice, commands -/

/-- A capture merges the enabled bytes of every word of the notice that lies in the setup block into the staged
shadow and leaves every other word of it; the command word is due where it has changed, and never while the part
is FETCHING. Which byte enable goes with which byte is presumed (log entry 2). -/
def Obligations.SetupCaptureMergesEnabledBytes : Prop :=
  (∀ (s : State) (n : Notice), s.inReset = false → s.pass.notice = some n → n.captureDue = true →
    n.address % 4 = 0 → s.setup.shadow.wf = true →
    ∃ (m : Option Group) (sh : Image), exec .setupCapture s = .next { s with
      pass := { s.pass with
        notice := { n with
          captureDue := false,
          commandDue := n.commandDue && s.setup.part != Part.fetching &&
            sh.get 2 != s.setup.lastCommand }.settled },
      setup := { s.setup with shadow := sh }, alerts := { s.alerts with mirror := m } } ∧
    (∀ i k w, i < 2048 → n.words[k]? = some w → n.address + 4 * k = s.setup.blockAddress + 4 * i →
      sh.get i = mergeBytes (s.setup.shadow.get i) w) ∧
    (∀ i, (∀ k, k < n.words.length → n.address + 4 * k ≠ s.setup.blockAddress + 4 * i) →
      sh.get i = s.setup.shadow.get i)) ∧
  (∀ (old : Word) (w : WriteWord) (b : Nat), b < 32 →
    (mergeBytes old w).getLsbD b =
      if w.enables.getLsbD (b / 8) then w.data.getLsbD b else old.getLsbD b)

/-- A write of the generation word, once merged: in UNSET it starts an apply; in ACTIVE it starts one where the
shadow's generation differs from the active one; in APPLYING it sets the pending flag where it differs from the
candidate's and clears it where it equals it; in FETCHING it does nothing. A candidate is words 0 to 1351 of the
shadow. -/
def Obligations.GenerationWriteStartsOrPendsAnApply : Prop :=
  (∀ (m : Image) (k i : Nat), (m.below k).get i = if i < k then m.get i else 0) ∧
  ∀ (s : State) (n : Notice), s.inReset = false → s.pass.notice = some n → n.generationDue = true →
    n.captureDue = false → n.clockDue = false →
    let settled := { n with generationDue := false }.settled
    let starts := s.setup.part = .unset ∨
      (s.setup.part = .active ∧ s.setup.generation ≠ some (s.setup.shadow.get 1))
    (starts → ∃ m, exec .generationWrite s = .next { s with
      pass := { s.pass with notice := settled },
      setup := { s.setup with
        part := .applying .validate, candidate := some (s.setup.shadow.below 1352) },
      alerts := { s.alerts with mirror := m, owed := { s.alerts.owed with realTime := true } } }) ∧
    (s.setup.part = .fetching ∨
      (s.setup.part = .active ∧ s.setup.generation = some (s.setup.shadow.get 1)) →
      ∃ m, exec .generationWrite s = .next { s with
        pass := { s.pass with notice := settled }, alerts := { s.alerts with mirror := m } }) ∧
    (∀ p c, s.setup.part = .applying p → s.setup.candidate = some c →
      ∃ m, exec .generationWrite s = .next { s with
        pass := { s.pass with notice := settled },
        setup := { s.setup with pendingApply := decide (s.setup.shadow.get 1 ≠ c.get 1) },
        alerts := { s.alerts with mirror := m } })

/-- A consumer index word takes its enabled low two bytes over the shadow; the value becomes the shadow where
the reserved producer leaves at most the ring's size unread, else it is refused with CONSUMER_INVALID; a word
that enables neither low byte does nothing. The step takes every word of the notice in address order. The
consumer index word of a ring in force is word 1 of its index slot. Which byte enable goes with which byte is
presumed (log entry 2). -/
def Obligations.ConsumerIndexIsTestedAgainstTheReservedProducer : Prop :=
  (∀ (s : State) (n : Notice), s.inReset = false → s.pass.notice = some n → n.consumerDue = true →
    ∃ m, exec .consumerIndexWrite s = .next
      (let u := State.consumerNotice n.address n.words { s with
         pass := { s.pass with notice := { n with consumerDue := false }.settled } }
       { u with alerts := { u.alerts with mirror := m } })) ∧
  (∀ (s : State) (n : Fin 16) (w : WriteWord),
    let ring := s.writer.rings[n]
    let v := mergeIndex ring.shadow w
    let p := if ring.reserved then ring.producer + 1 else ring.producer
    (∀ b, b < 16 → v.getLsbD b =
      if w.enables.getLsbD (b / 8) then w.data.getLsbD b else ring.shadow.getLsbD b) ∧
    (w.enables.getLsbD 0 = false → w.enables.getLsbD 1 = false → s.consumerWord n w = s) ∧
    (w.enables.getLsbD 0 = true ∨ w.enables.getLsbD 1 = true → (p - v).toNat ≤ s.cfg.ringSize n →
      s.consumerWord n w = { s with
        writer := { s.writer with rings := s.writer.rings.set n { ring with shadow := v } } }) ∧
    (w.enables.getLsbD 0 = true ∨ w.enables.getLsbD 1 = true → ¬ (p - v).toNat ≤ s.cfg.ringSize n →
      s.consumerWord n w = { s with alerts := s.alerts.latch .consumerInvalid })) ∧
  (∀ (m : Image) (a : Nat),
    (∀ n, m.consumerLine a = some n → m.kind n ≠ .none ∧ a = m.ringBase n + 4) ∧
    (m.consumerLine a = none → ∀ n : Fin 16, m.kind n ≠ .none → a ≠ m.ringBase n + 4) ∧
    (∀ (block : Nat) (n : Fin 16), m.validate block = none → m.kind n ≠ .none → a = m.ringBase n + 4 →
      m.consumerLine a = some n)) ∧
  (∀ (s : State) (a : Nat) (w : WriteWord) (ws : List WriteWord),
    State.consumerNotice a [] s = s ∧
    (s.cfg.consumerLine a = none → State.consumerNotice a (w :: ws) s = State.consumerNotice (a + 4) ws s) ∧
    ∀ n, s.cfg.consumerLine a = some n →
      State.consumerNotice a (w :: ws) s = State.consumerNotice (a + 4) ws (State.consumerWord n w s))

/-- A read of the latched-alert word clears in the latched word exactly the bits that it returned, makes the
latched group owed and sets the read-hold flag; a word with none of bits 0 to 21 set, and any read while the part
is FETCHING, changes nothing. -/
def Obligations.ReadClearsExactlyTheReturnedBits : Prop :=
  ∀ (s : State) (w : Word), s.steady = true → s.pass.observation = some w →
    (s.setup.part = .fetching ∨ w.truncate 22 = 0#22 →
      ∃ m, exec .latchedAlertRead s = .next { s with
        pass := { s.pass with observation := none }, alerts := { s.alerts with mirror := m } }) ∧
    (s.setup.part ≠ .fetching → w.truncate 22 ≠ 0#22 →
      ∃ (m : Option Group) (l : BitVec 22), exec .latchedAlertRead s = .next { s with
        pass := { s.pass with observation := none },
        alerts := { s.alerts with
          latched := l, readHold := true, mirror := m, owed := { s.alerts.owed with latched := true } } } ∧
      ∀ b, b < 22 → l.getLsbD b = (s.alerts.latched.getLsbD b && !w.getLsbD b))

/-- A taken command word with code 0 does nothing but become the last command word, and during APPLYING removes
a waiting command. A code of 1 to 255 is answered REFUSED_UNSET in UNSET and waits, with its argument, during
APPLYING; a code from 6 to 255 is answered BAD_ARGUMENT in ACTIVE. That CLOSE_BINS and RESTART come once the
closes of the last advance and the hand-overs that have room are taken is log entry 12. A waiting command is dealt
with, at the end of an apply, as these steps deal with theirs. -/
def Obligations.CommandsAreRefusedWaitOrDoNothing : Prop :=
  ∀ (s : State) (n : Notice) (word arg : Word) (code : Nat), s.CommandDelivered n →
    word = s.setup.shadow.get 2 → arg = s.setup.shadow.get 3 → code = word.toNat % 256 →
    (code = 1 ∨ code = 2 → s.closesTaken = true) →
    (∃ m, exec (commandStep code) s = .next
      (let u := State.dealWith word arg (s.commandTaken n)
       { u with alerts := { u.alerts with mirror := m } })) ∧
    (s.setup.part = .unset ∨ s.setup.part = .active → code = 0 →
      ∃ m, exec .noCommand s = .next
        (let u := s.commandTaken n
         { u with alerts := { u.alerts with mirror := m } })) ∧
    (∀ p, s.setup.part = .applying p →
      ∃ m, exec (commandStep code) s = .next
        (let u := s.commandTaken n
         { u with setup := { u.setup with waiting := if code = 0 then none else some (word, arg) },
                  alerts := { u.alerts with mirror := m } })) ∧
    (s.setup.part = .unset → code ≠ 0 →
      ∃ m, exec (commandStep code) s = .next
        (let u := s.commandTaken n
         { u with alerts := { s.alerts.withResult word .refusedUnset with mirror := m } })) ∧
    (s.setup.part = .active → 6 ≤ code →
      ∃ m, exec .undefinedCommand s = .next
        (let u := s.commandTaken n
         { u with alerts := { s.alerts.withResult word .badArgument with mirror := m } }))

/-- CLOSE_BINS in ACTIVE closes each named group, in increasing head number and without its epoch, and answers
DONE, where the mask is not 0, has no bit above 15 and names group heads alone; otherwise nothing closes and the
answer is BAD_ARGUMENT. -/
def Obligations.CloseBinsClosesTheNamedGroups : Prop :=
  ∀ (s : State) (n : Notice) (word arg : Word), s.CommandDelivered n → s.closesTaken = true →
    s.setup.part = .active → word = s.setup.shadow.get 2 → arg = s.setup.shadow.get 3 → word.toNat % 256 = 1 →
    let valid := arg ≠ 0 ∧ arg.toNat < 65536 ∧ ∀ h : Fin 16, arg.getLsbD h = true → s.cfg.isHead h = true
    (valid → ∃ m, exec .closeBins s = .next
      (let u := s.commandTaken n
       let x := ((List.finRange 16).filter (fun h => arg.getLsbD h.val)).foldl
         (fun x h => x.closeGroup s.cfg h false) s.books
       { u with channels := x.channels, lines := x.lines, tally := x.ledger.tally,
                alerts := { x.ledger.alerts.withResult word .done with mirror := m } })) ∧
    (¬valid → ∃ m, exec .closeBins s = .next
      (let u := s.commandTaken n
       { u with alerts := { s.alerts.withResult word .badArgument with mirror := m } }))

/-- RESTART in ACTIVE empties the intake queue and the assembly buffers, drops the hold request, makes every
enabled channel UNSEEN with its residue and flag cleared, clears every line's accounts with no record and no
update, empties the hand-over list, and zeroes the defect counters and their copies; it keeps the setup in
force, the clock and the boundaries, the rings, the writer queue and the whole Tally Engine. SPILL_EDGE and
STALE_EDGE are latched at the falls of their conditions under select both. The waiting burst
is marked for its release and accepted by HOLD_RELEASE (log entry 5). That every line is empty right after the step,
a record in hand untouched, is the model's choice (log entry 31). -/
def Obligations.RestartClearsTheAccounts : Prop :=
  ∀ (s : State) (n : Notice) (word : Word), s.CommandDelivered n → s.closesTaken = true →
    s.setup.part = .active → word = s.setup.shadow.get 2 → word.toNat % 256 = 2 →
    ∃ t, exec .restart s = .next t ∧
    t.intake.queue = [] ∧ t.intake.holdRequest = false ∧ t.intake.accepted = s.intake.accepted ∧
    (∀ i : Fin 4, t.intake.windows[i] = { partialRecord := none, timer := none, inject := false }) ∧
    (∀ e : Fin 256, t.channels.meters[e] = if s.cfg.channelEnabled e
      then { s.channels.meters[e] with
        state := .unseen, candidate := none, suspectCount := none, lastSequence := none, gap := 0,
        timer := none, residue := 0, staleInBin := false }
      else s.channels.meters[e]) ∧
    t.channels.inHand = s.channels.inHand ∧ t.channels.pause = s.channels.pause ∧
    (∀ k : Fin 16, t.lines.lines[k] =
      { state := if s.cfg.kind k = .none then .idle else .running, changeoverPending := false,
        timer := none, jobCode := 0, unitWeight := 0, bin := .opened s.lines.clock.toNat .clear,
        closing := none, epoch := .opened s.lines.clock.toNat, epochSnap := none,
        job := .opened s.lines.clock.toNat, jobSnap := none, pulledResidue := 0, packedResidue := 0,
        summarySaturation := false }) ∧
    t.lines.handOver = [] ∧ t.lines.clock = s.lines.clock ∧ t.lines.pulses = s.lines.pulses ∧
    t.lines.bounds = s.lines.bounds ∧
    (∀ i : Fin 4, t.alerts.counters[i] = { count := 0, latch := 0 }) ∧
    ((∃ i : Fin 4, (s.alerts.counters[i]).latch ≠ 0) → t.alerts.owed.counters = true) ∧
    t.alerts.has .commandDone = true ∧ t.alerts.commandResult = { word := word, result := .done } ∧
    t.alerts.reportTimer = s.alerts.reportTimer ∧ t.alerts.readHold = s.alerts.readHold ∧
    (∀ b, b ≠ .commandDone → b ≠ .spillEdge → b ≠ .staleEdge → t.alerts.has b = s.alerts.has b) ∧
    (t.alerts.has .staleEdge = true ↔ s.alerts.has .staleEdge = true ∨
      (s.channels.anyStale = false ∧ t.channels.anyStale = true) ∨
      (s.channels.anyStale = true ∧ t.channels.anyStale = false ∧ s.cfg.selectsBoth .anyStale = true)) ∧
    (s.channels.anyStale ≠ t.channels.anyStale → t.alerts.owed.realTime = true) ∧
    (t.alerts.has .spillEdge = true ↔ s.alerts.has .spillEdge = true ∨
      (s.intake.holdRequest = true ∧ s.pass.spilling = true ∧ s.cfg.selectsBoth .spilling = true)) ∧
    t.pass.slot = s.pass.slot ∧ t.pass.heldWrite = s.pass.heldWrite ∧ t.pass.port = s.pass.port ∧
    t.pass.runCount = s.pass.runCount ∧ t.pass.turn = s.pass.turn ∧ t.pass.holdTimer = s.pass.holdTimer ∧
    (s.intake.holdRequest = true → t.pass.spilling = false) ∧
    (s.intake.holdRequest = true → s.pass.spilling = false → s.pass.heldWrite.isSome = true →
      t.pass.releaseDue = true) ∧
    t.writer = s.writer ∧ t.tally = s.tally ∧ t.setup = { s.setup with lastCommand := word } ∧
    t.pending = s.pending ∧ t.inReset = s.inReset

/-- REPRIME in ACTIVE makes one enabled entry UNSEEN, keeping baseline, residue and stale-in-bin flag, with
STALE_EDGE where ANY_STALE falls under select both, and
TRANSFER_COUNTERS copies every manual counter to its latched copy and zeroes it; both answer DONE. An index above
255 or a disabled entry is answered BAD_ARGUMENT. -/
def Obligations.ReprimeAndTransferActOnWhatTheyName : Prop :=
  (∀ (s : State) (n : Notice) (word arg : Word), s.CommandDelivered n → s.setup.part = .active →
    word = s.setup.shadow.get 2 → arg = s.setup.shadow.get 3 → word.toNat % 256 = 3 →
    (∀ e : Fin 256, arg.toNat = e.val → s.cfg.channelEnabled e = true →
      ∃ t, exec .reprime s = .next t ∧
      t = (let u := s.commandTaken n
           { u with
             channels := { s.channels with
               meters := s.channels.meters.set e { s.channels.meters[e] with
                 state := .unseen, candidate := none, suspectCount := none, lastSequence := none, gap := 0,
                 timer := none } },
             alerts := t.alerts }) ∧
      t.alerts.commandResult = { word := word, result := .done } ∧ t.alerts.has .commandDone = true ∧
      (t.alerts.has .staleEdge = true ↔ s.alerts.has .staleEdge = true ∨
        (s.channels.anyStale = false ∧ t.channels.anyStale = true) ∨
        (s.channels.anyStale = true ∧ t.channels.anyStale = false ∧ s.cfg.selectsBoth .anyStale = true)) ∧
      (s.channels.anyStale ≠ t.channels.anyStale → t.alerts.owed.realTime = true) ∧
      (∀ b, b ≠ .commandDone → b ≠ .staleEdge → t.alerts.has b = s.alerts.has b) ∧
      t.alerts.counters = s.alerts.counters) ∧
    ((∀ e : Fin 256, arg.toNat = e.val → s.cfg.channelEnabled e = false) →
      ∃ m, exec .reprime s = .next
        (let u := s.commandTaken n
         { u with alerts := { s.alerts.withResult word .badArgument with mirror := m } }))) ∧
  (∀ (s : State) (n : Notice) (word : Word), s.CommandDelivered n → s.setup.part = .active →
    word = s.setup.shadow.get 2 → word.toNat % 256 = 4 →
    ∃ t, exec .transferCounters s = .next t ∧
    t = (let u := s.commandTaken n
         { u with alerts := t.alerts }) ∧
    (∀ i : Fin 4, t.alerts.counters[i] = if s.cfg.counterMode i = 1 then s.alerts.counters[i]
      else { count := 0, latch := (s.alerts.counters[i]).count }) ∧
    (t.alerts.owed.counters = true ↔ s.alerts.owed.counters = true ∨
      ∃ i : Fin 4, (t.alerts.counters[i]).latch ≠ (s.alerts.counters[i]).latch) ∧
    t.alerts.commandResult = { word := word, result := .done } ∧ t.alerts.has .commandDone = true ∧
    (∀ b, b ≠ .commandDone → t.alerts.has b = s.alerts.has b))

/-- R30: INJECT_CHECK_FAULT sets the inject flag of the window its argument names, 0 to 3, enabled or not and set
already or not, and is answered DONE at once; an argument above 3 sets no flag and is answered BAD_ARGUMENT. It
waits during APPLYING and is refused in UNSET. -/
def Obligations.InjectCheckFaultSetsTheWindowFlag : Prop :=
  ∀ (s : State) (n : Notice) (word arg : Word), s.CommandDelivered n →
    word = s.setup.shadow.get 2 → arg = s.setup.shadow.get 3 → word.toNat % 256 = 5 →
    (∀ i : Fin 4, s.setup.part = .active → arg.toNat = i.val → ∃ m, exec .injectCheckFault s = .next
      (let u := s.commandTaken n
       { u with
         intake := { s.intake with
           windows := s.intake.windows.set i { s.intake.windows[i] with inject := true } },
         alerts := { s.alerts.withResult word .done with mirror := m } })) ∧
    (s.setup.part = .active → 3 < arg.toNat → ∃ m, exec .injectCheckFault s = .next
      (let u := s.commandTaken n
       { u with alerts := { s.alerts.withResult word .badArgument with mirror := m } })) ∧
    (∀ p, s.setup.part = .applying p → ∃ m, exec .injectCheckFault s = .next
      (let u := s.commandTaken n
       { u with setup := { u.setup with waiting := some (word, arg) },
                alerts := { u.alerts with mirror := m } })) ∧
    (s.setup.part = .unset → ∃ m, exec .injectCheckFault s = .next
      (let u := s.commandTaken n
       { u with alerts := { s.alerts.withResult word .refusedUnset with mirror := m } }))

/-! ### Meter channels -/

/-- The Channel Unit removes the head record. Where that brings the queue to the low-water mark the hold request
drops: spill ends, with its edge bit under select both, or a waiting burst is marked for its release (log entry
5). STALE_EDGE is latched where ANY_STALE rises, and where it falls under select both. With no enabled entry for
its channel the record is dropped with ADMIT_DROP. Otherwise its entry takes the handling's meter state with the
converted residue, its defects are counted and latched, a reprime latches REPRIMED, and its line takes at most one
reprime notice and one credit, SATURATION being latched where one of them saturates (what each does to the line is
CreditsAddByQuantityAndMark); no other entry and no other line changes. -/
def Obligations.RecordTakeHandlesTheHeadRecord : Prop :=
  ∀ (s : State) (r : TapRecord) (rest : List TapRecord), s.steady = true →
    (s.setup.part = .active ∨ ∃ p, s.setup.part = .applying p) → s.channels.pause = false →
    s.channels.inHand = none → s.intake.queue = r :: rest →
    ∃ t, exec .recordTake s = .next t ∧ t.intake.queue = rest ∧ t.intake.windows = s.intake.windows ∧
    t.intake.accepted = s.intake.accepted ∧
    t.intake.holdRequest = (s.intake.holdRequest && decide (s.cfg.lowWater < rest.length)) ∧
    t.writer = s.writer ∧ t.tally = s.tally ∧ t.setup = s.setup ∧ t.pending = s.pending ∧
    t.inReset = s.inReset ∧
    (let drops := s.intake.holdRequest = true ∧ rest.length ≤ s.cfg.lowWater
     (¬drops → t.pass = s.pass) ∧
     (drops → s.pass.spilling = true → t.pass = { s.pass with spilling := false } ∧
       (s.cfg.selectsBoth .spilling = true → t.alerts.has .spillEdge = true)) ∧
     (drops → s.pass.spilling = false →
       t.pass = { s.pass with releaseDue := s.pass.releaseDue || s.pass.heldWrite.isSome })) ∧
    (t.alerts.has .staleEdge = true ↔ s.alerts.has .staleEdge = true ∨
      (s.channels.anyStale = false ∧ t.channels.anyStale = true) ∨
      (s.channels.anyStale = true ∧ t.channels.anyStale = false ∧ s.cfg.selectsBoth .anyStale = true)) ∧
    (s.channels.anyStale ≠ t.channels.anyStale → t.alerts.owed.realTime = true) ∧
    (t.alerts.has .spillEdge = true ↔ s.alerts.has .spillEdge = true ∨
      (s.intake.holdRequest = true ∧ rest.length ≤ s.cfg.lowWater ∧ s.pass.spilling = true ∧
        s.cfg.selectsBoth .spilling = true)) ∧
    t.lines.clock = s.lines.clock ∧ t.lines.bounds = s.lines.bounds ∧
    t.lines.handOver = s.lines.handOver ∧
    (s.cfg.entryOf r.channel = none →
      t.channels = s.channels ∧ t.lines = s.lines ∧ t.alerts.has .admitDrop = true ∧
      t.alerts.has .saturation = s.alerts.has .saturation ∧
      t.alerts.counters = (s.alerts.report s.cfg .admitDrop).counters) ∧
    (∀ e, s.cfg.entryOf r.channel = some e →
      let c := s.cfg.channel e
      let h := (s.channels.meters[e]).handle c s.cfg.reprimeThreshold r
      let l := s.lines.lines[c.line]
      let l1 := if h.reprimed then l.reprimeNotice.1 else l
      (∀ k : Fin 256, k ≠ e → t.channels.meters[k] = s.channels.meters[k]) ∧
      (∀ k : Fin 16, k ≠ c.line → t.lines.lines[k] = s.lines.lines[k]) ∧
      t.alerts.counters = (h.defects.foldl (fun a d => a.report s.cfg d) s.alerts).counters ∧
      (∀ d ∈ h.defects, ∀ b, d.bit = some b → t.alerts.has b = true) ∧
      (h.reprimed = true → t.alerts.has .reprimed = true) ∧
      (∀ b, s.alerts.has b = true → t.alerts.has b = true) ∧
      (∀ b, b ≠ .saturation → b ≠ .counterFull → b ≠ .spillEdge → b ≠ .staleEdge → t.alerts.has b = true →
        s.alerts.has b = true ∨ (∃ d ∈ h.defects, d.bit = some b) ∨ (b = .reprimed ∧ h.reprimed = true)) ∧
      let noticed := h.reprimed = true ∧ l.reprimeNotice.2 = true
      (h.counts = none → t.channels.meters[e] = h.meter ∧ t.lines.lines[c.line] = l1 ∧
        (t.alerts.has .saturation = true ↔ s.alerts.has .saturation = true ∨ noticed)) ∧
      (∀ d carried, h.counts = some (d, carried) →
        let q := c.convert l.unitWeight h.meter.residue d
        let k : Credit := { quantity := q.1, amount := q.2.1, estimated := r.quality == Quality.estimated,
                            carriedIn := carried }
        t.channels.meters[e] = { h.meter with residue := q.2.2 } ∧
        t.lines.lines[c.line] = (if q.2.1 = 0 then l1 else (l1.credit (s.cfg.kind c.line) k).1) ∧
        (t.alerts.has .saturation = true ↔ s.alerts.has .saturation = true ∨ noticed ∨
          (q.2.1 ≠ 0 ∧ (l1.credit (s.cfg.kind c.line) k).2 = true))))

/-- The quality of a record from its first tag word; the screening and the state machine of a record at its
entry, by quality, sequence number and meter state, with and without a last sequence; the conversion of counts
with its residue, and the quantity that a credit adds to, by the entry's kind and its class or mass role. -/
def Obligations.MeterMachineFollowsTheStateTable : Prop :=
  (∀ (c : ChannelSetup) (k : Nat) (r : TapRecord) (m : Meter),
    let unchanged : Handling := { meter := m, defects := [], reprimed := false, counts := none }
    (r.tags = [] → r.quality = .good) ∧
    (∀ t ts, r.tags = t :: ts →
      r.quality = if t.toNat % 256 = 0 then .good else if t.toNat % 256 = 1 then .estimated
        else if t.toNat % 256 = 3 then .test else .fault) ∧
    (r.quality = .test → m.handle c k r = unchanged) ∧
    (r.quality = .fault → m.lastSequence = none →
      m.handle c k r = { unchanged with defects := [.faultTagged] }) ∧
    (r.quality ≠ .test → r.quality ≠ .fault → m.lastSequence = none →
      m.handle c k r = Meter.machine c k r.kind r.sequence (r.value.toNat % 2 ^ c.width) m) ∧
    (∀ last, r.quality ≠ .test → m.lastSequence = some last →
      (r.sequence = last ∨ 128 ≤ (r.sequence - last).toNat →
        m.handle c k r = { unchanged with defects := [.duplicateLate] }) ∧
      (r.quality = .fault → (r.sequence - last).toNat = 1 →
        m.handle c k r = { unchanged with
          meter := { m with lastSequence := some r.sequence }, defects := [.faultTagged] }) ∧
      (r.quality = .fault → 2 ≤ (r.sequence - last).toNat → (r.sequence - last).toNat < 128 →
        m.handle c k r = { unchanged with
          meter := { m with lastSequence := some r.sequence }, defects := [.sequenceGap, .faultTagged] }) ∧
      (r.quality ≠ .fault → (r.sequence - last).toNat = 1 →
        m.handle c k r = Meter.machine c k r.kind r.sequence (r.value.toNat % 2 ^ c.width)
          { m with lastSequence := some r.sequence }) ∧
      (r.quality ≠ .fault → 2 ≤ (r.sequence - last).toNat → (r.sequence - last).toNat < 128 →
        ∃ h, h = Meter.machine c k r.kind r.sequence (r.value.toNat % 2 ^ c.width)
          { m with lastSequence := some r.sequence } ∧
        m.handle c k r = { h with defects := .sequenceGap :: h.defects }))) ∧
  (∀ (c : ChannelSetup) (k : Nat) (seq : BitVec 8) (v : Nat) (m : Meter), v < 2 ^ c.width →
    m.baseline < 2 ^ c.width →
    let d := (v + 2 ^ c.width - m.baseline) % 2 ^ c.width
    let adopted : Meter := { m with
      state := .live, baseline := v, candidate := none, suspectCount := none, gap := 0,
      timer := some c.timeout }
    let doubted (n : Nat) : Meter := { m with
      state := .suspect, candidate := some v, suspectCount := some n, gap := 0, timer := some c.timeout }
    let machine := m.machine c k .reading seq v
    (m.state = .unseen → machine =
      { meter := { adopted with lastSequence := some seq }, defects := [], reprimed := false,
        counts := none }) ∧
    (m.state = .live → d ≤ c.ceiling → machine =
      { meter := adopted, defects := [], reprimed := false, counts := some (d, false) }) ∧
    (m.state = .live → c.ceiling < d → 2 ^ c.width - d ≤ c.tolerance → machine =
      { meter := { m with timer := some c.timeout }, defects := [.implausible], reprimed := false,
        counts := none }) ∧
    (m.state = .live → c.ceiling < d → c.tolerance < 2 ^ c.width - d → machine =
      { meter := doubted 1, defects := [.implausible], reprimed := false, counts := none }) ∧
    (m.state = .suspect → d ≤ c.ceiling → machine =
      { meter := adopted, defects := [], reprimed := false, counts := some (d, false) }) ∧
    (∀ cand n, m.state = .suspect → m.candidate = some cand → cand < 2 ^ c.width →
      m.suspectCount = some n → c.ceiling < d →
      ((v + 2 ^ c.width - cand) % 2 ^ c.width ≤ c.ceiling → k ≤ n + 1 → machine =
        { meter := adopted, defects := [], reprimed := true, counts := none }) ∧
      ((v + 2 ^ c.width - cand) % 2 ^ c.width ≤ c.ceiling → n + 1 < k → machine =
        { meter := doubted (n + 1), defects := [], reprimed := false, counts := none }) ∧
      (c.ceiling < (v + 2 ^ c.width - cand) % 2 ^ c.width → machine =
        { meter := doubted 1, defects := [.implausible], reprimed := false, counts := none })) ∧
    (m.state = .stale → d ≤ c.ceiling * (m.gap + 1) → machine =
      { meter := adopted, defects := [], reprimed := false, counts := some (d, true) }) ∧
    (m.state = .stale → c.ceiling * (m.gap + 1) < d → machine =
      { meter := doubted 1, defects := [.implausible], reprimed := false, counts := none }) ∧
    (m.state ≠ .retired → m.machine c k .resetNotice seq v =
      { meter := { adopted with residue := 0, lastSequence := some seq }, defects := [],
        reprimed := false, counts := none })) ∧
  (∀ (c : ChannelSetup) (weight residue d : Nat),
    let q := c.convert weight residue d
    (c.kind = .energy ∨ c.kind = .massDirect →
      q.2.1 * 65536 + q.2.2 = d * c.factor + residue ∧ q.2.2 < 65536) ∧
    (c.kind = .energy → q.1 = if c.role = 0 then .thermal else if c.role = 1 then .electric else .auxiliary) ∧
    (c.kind = .massDirect ∨ (c.kind = .massCount ∧ weight ≠ 0) →
      q.1 = if c.role = 0 then .pulled else .packed) ∧
    (c.kind = .massCount → weight ≠ 0 → q.2.1 = d * weight ∧ q.2.2 = residue) ∧
    (c.kind = .massCount → weight = 0 → q = (.unweighed, d, residue)))

/-! ### Records and rings -/

/-- HAND_OVER forms the record of the snapshot at the head of the hand-over list, 16 words with the gross and
net intensities of its sums, and puts it at the tail of a writer queue with a free place, also while a write
notice is in delivery; the snapshot leaves its line and the list; an intensity that saturates latches
SATURATION. TALLY_MISS_HAND_OVER does the same with the oldest entry of the miss list. The words of each kind of
record are laid out one by one; the Result Writer fills in the lost-before count and the check word. -/
def Obligations.HandOversFillTheWriterQueue : Prop :=
  let w (n : Nat) : Word := BitVec.ofNat 32 n
  let top32 := 4294967295
  let intensity (energy kg : Nat) : Nat := if kg = 0 then 0 else min (100 * energy / kg) top32
  let past (energy kg : Nat) : Bool := decide (kg ≠ 0 ∧ top32 < 100 * energy / kg)
  let total (kind : LineKind) (x : Sums) : Nat :=
    x.thermal + x.electric + x.auxiliary + (if kind = .forming then x.share else 0)
  let passes (kind : LineKind) (x : Sums) : Bool :=
    past (total kind x) x.pulledKg || past (total kind x) x.packedKg
  let first (code : Nat) (n : Fin 16) (field merged : Nat) : Word :=
    w (code * 2 ^ 30 + n.val * 2 ^ 26 + field * 2 ^ 16 + merged * 2 ^ 8)
  let last (saturated stopped changeover grossAbsent netAbsent clipped : Bool) (reprimes : Nat) : Word :=
    w ((saturated.toNat + 2 * stopped.toNat + 4 * changeover.toNat + 8 * grossAbsent.toNat +
      16 * netAbsent.toNat + 32 * clipped.toNat) * 2 ^ 24 + reprimes * 2 ^ 16)
  let span (start covered stale : Nat) (kind : LineKind) (x : Sums) : List Word :=
    [w start, w x.thermal, w x.electric, w x.auxiliary, w x.share, w x.carriedIn, w x.estimated,
     w x.changeover, w x.pulledKg, w x.packedKg, w (intensity (total kind x) x.pulledKg),
     w (intensity (total kind x) x.packedKg), w (min stale 255 * 2 ^ 24 + min covered 16777215),
     w (x.unweighed * 2 ^ 16 + min x.stoppedSeconds 65535)]
  let long (covered stale : Nat) (x : Sums) : Bool :=
    decide (16777215 < covered ∨ 255 < stale ∨ 65535 < x.stoppedSeconds)
  (∀ (s : State) (k : SnapshotKind) (n : Fin 16) (rest : List (SnapshotKind × Fin 16)),
    s.inReset = false → s.lines.handOver = (k, n) :: rest → s.writer.queue.length < 16 →
    (s.lines.lines[n]).waits k = true →
    ∃ t r, exec .handOver s = .next t ∧ t.writer = { s.writer with queue := s.writer.queue ++ [r] } ∧
    r.line = n ∧ r.words.length = 16 ∧
    t.lines = { s.lines with
      handOver := rest, lines := s.lines.lines.set n ((s.lines.lines[n]).takeSnapshot k n).2 } ∧
    (t.lines.lines[n]).waits k = false ∧
    (∀ b, k = .bin → (s.lines.lines[n]).closing = some b →
      r.kind = .bin ∧ r.words = [first 0 n b.jobCode b.merged] ++
        span b.start b.covered b.stale b.kind b.sums ++
        [last (b.flags.saturated || passes b.kind b.sums) b.flags.stopped b.flags.changeover
          (decide (b.sums.pulledKg = 0)) (decide (b.sums.packedKg = 0)) (long b.covered b.stale b.sums)
          b.sums.reprimes] ∧
      (t.alerts.has .saturation = true ↔ s.alerts.has .saturation = true ∨ passes b.kind b.sums = true)) ∧
    (∀ e, k = .epoch → (s.lines.lines[n]).epochSnap = some e →
      let x := e.epoch.sums
      r.kind = .epoch ∧ r.words = [first 1 n (min e.epoch.bins 1023) e.merged] ++
        span e.epoch.start e.epoch.covered e.epoch.stale e.kind x ++
        [last (e.epoch.flags.saturated || passes e.kind x) e.epoch.flags.stopped e.epoch.flags.changeover
          (decide (x.pulledKg = 0)) (decide (x.packedKg = 0))
          (long e.epoch.covered e.epoch.stale x || decide (1023 < e.epoch.bins)) x.reprimes] ∧
      (t.alerts.has .saturation = true ↔ s.alerts.has .saturation = true ∨ passes e.kind x = true)) ∧
    (∀ j, k = .job → (s.lines.lines[n]).jobSnap = some j →
      let full := past j.energy j.pulledKg || past j.energy j.packedKg
      r.kind = .job ∧ r.words = [first 2 n j.code j.merged, w j.start, w j.finish, w j.energy,
        w (j.energy / 2 ^ 32), w j.share, w (j.share / 2 ^ 32), w j.changeover, w j.changeoverSeconds,
        w (min j.pulledKg top32), w (min j.packedKg top32), w (intensity j.energy j.pulledKg),
        w (intensity j.energy j.packedKg), 0, 0,
        last (j.saturated || full) false false (decide (j.pulledKg = 0)) (decide (j.packedKg = 0))
          (decide (top32 < j.pulledKg ∨ top32 < j.packedKg)) 0] ∧
      (t.alerts.has .saturation = true ↔ s.alerts.has .saturation = true ∨ full = true)) ∧
    t.channels = s.channels ∧ t.tally = s.tally ∧ t.pass = s.pass ∧ t.intake = s.intake ∧
    t.setup = s.setup ∧ t.pending = s.pending ∧ t.inReset = s.inReset ∧
    t.alerts.counters = s.alerts.counters ∧
    (∀ b, b ≠ .saturation → t.alerts.has b = s.alerts.has b)) ∧
  (∀ (s : State) (x : Miss) (rest : List Miss), s.steady = true → s.tally.misses = x :: rest →
    s.writer.queue.length < 16 → ∃ m, exec .tallyMissHandOver s = .next { s with
      tally := { s.tally with misses := rest },
      writer := { s.writer with queue := s.writer.queue ++ [x.record] },
      alerts := { s.alerts with mirror := m } }) ∧
  (∀ x : Miss, x.record = {
    kind := .tallyMiss, line := x.line,
    words := [first 3 x.line 0 (x.count - 1),
      w (x.locked.toNat * 2 ^ 24 + x.writeFault.toNat * 2 ^ 18 + x.readFault.toNat * 2 ^ 17 +
        x.contention.toNat * 2 ^ 16 + x.entry),
      w x.energy, w (x.energy / 2 ^ 32), w x.pulled, w x.packed, w x.changeover, w x.counted, w x.time,
      0, 0, 0, 0, 0, 0, last x.saturated false false false false false 0] })

/-- TAKE_INTO_HAND: with no ring in force the head record is discarded with RING_OVERRUN and no count rises;
with a full ring it is discarded with RING_OVERRUN and the ring's counts rise, saturating; otherwise the ring is
reserved, the record completed with the pending lost count and its record write requested. That the step waits
for the answer to an initialising write is deduced (log entry 22). -/
def Obligations.TakeIntoHandChecksRingAndSpace : Prop :=
  ∀ (s : State) (r : ResultRecord) (rest : List ResultRecord), s.steady = true → s.writer.step = none →
    s.writer.queue = r :: rest → (∀ n : Fin 16, (s.writer.rings[n]).initOwed = false) →
    (∀ n txn, s.pass.port ≠ .internal (.initialisingWrite n) txn) →
    let ring := s.writer.rings[r.line]
    (s.cfg.kind r.line = .none → ∃ m, exec .takeIntoHand s = .next { s with
      writer := { s.writer with queue := rest },
      alerts := { s.alerts.latch .ringOverrun with mirror := m } }) ∧
    (s.cfg.kind r.line ≠ .none → (ring.producer - ring.shadow).toNat = s.cfg.ringSize r.line →
      ∃ m, exec .takeIntoHand s = .next { s with
        writer := { s.writer with
          queue := rest,
          rings := s.writer.rings.set r.line { ring with
            overrun := min (ring.overrun + 1) 65535, pendingLost := min (ring.pendingLost + 1) 255,
            reserved := false } },
        alerts := { s.alerts.latch .ringOverrun with mirror := m } }) ∧
    (s.cfg.kind r.line ≠ .none → (ring.producer - ring.shadow).toNat ≠ s.cfg.ringSize r.line →
      ∃ m, exec .takeIntoHand s = .next { s with
        writer := { s.writer with
          queue := { r with words := completeRecord ring.pendingLost r.words } :: rest,
          step := some .recordWrite,
          rings := s.writer.rings.set r.line { ring with reserved := true } },
        alerts := { s.alerts with mirror := m } })

/-- The answers to the Result Writer's writes: a record write answered OK leads to the index write, an index
write answered OK publishes the record; the first ERROR of either is retried; the second discards the record
with MEMORY_FAULT and raises the ring's counts, and a shadow one ahead of the producer falls back to it (at the
index write by R114; that it does so at the record write too is deduced from R115, log entry 19). An
initialising write answered ERROR latches MEMORY_FAULT alone. -/
def Obligations.RingWritesPublishOrDiscard : Prop :=
  (∀ (s : State) (txn : Txn) (r : ResultRecord) (rest : List ResultRecord), s.steady = true →
    s.pass.port = .internal .recordWrite txn → s.writer.queue = r :: rest →
    let ring := s.writer.rings[r.line]
    (∃ m, exec (.recordWriteResponse .ok) s = .next { s with
      pass := { s.pass with port := .free }, writer := { s.writer with step := some .indexWrite },
      alerts := { s.alerts with mirror := m } }) ∧
    (s.writer.step ≠ some .recordRetry → ∃ m, exec (.recordWriteResponse .error) s = .next { s with
      pass := { s.pass with port := .free }, writer := { s.writer with step := some .recordRetry },
      alerts := { s.alerts with mirror := m } }) ∧
    (s.writer.step = some .recordRetry → ∃ m, exec (.recordWriteResponse .error) s = .next { s with
      pass := { s.pass with port := .free },
      writer := { queue := rest, step := none, rings := s.writer.rings.set r.line { ring with
        overrun := min (ring.overrun + 1) 65535, pendingLost := min (ring.pendingLost + 1) 255,
        reserved := false,
        shadow := if ring.shadow = ring.producer + 1 then ring.producer else ring.shadow } },
      alerts := { s.alerts.latch .memoryFault with mirror := m } })) ∧
  (∀ (s : State) (txn : Txn) (r : ResultRecord) (rest : List ResultRecord), s.steady = true →
    s.pass.port = .internal .indexWrite txn → s.writer.queue = r :: rest →
    let ring := s.writer.rings[r.line]
    (∃ m, exec (.indexWriteResponse .ok) s = .next { s with
      pass := { s.pass with port := .free },
      writer := { queue := rest, step := none, rings := s.writer.rings.set r.line { ring with
        producer := ring.producer + 1, reserved := false, pendingLost := 0 } },
      alerts := { s.alerts with mirror := m } }) ∧
    (s.writer.step ≠ some .indexRetry → ∃ m, exec (.indexWriteResponse .error) s = .next { s with
      pass := { s.pass with port := .free }, writer := { s.writer with step := some .indexRetry },
      alerts := { s.alerts with mirror := m } }) ∧
    (s.writer.step = some .indexRetry → ∃ m, exec (.indexWriteResponse .error) s = .next { s with
      pass := { s.pass with port := .free },
      writer := { queue := rest, step := none, rings := s.writer.rings.set r.line { ring with
        overrun := min (ring.overrun + 1) 65535, pendingLost := min (ring.pendingLost + 1) 255,
        reserved := false,
        shadow := if ring.shadow = ring.producer + 1 then ring.producer else ring.shadow } },
      alerts := { s.alerts.latch .memoryFault with mirror := m } })) ∧
  (∀ (s : State) (n : Fin 16) (txn : Txn), s.steady = true →
    s.pass.port = .internal (.initialisingWrite n) txn →
    (∃ m, exec (.initialisingWriteResponse .ok) s = .next { s with
      pass := { s.pass with port := .free }, alerts := { s.alerts with mirror := m } }) ∧
    (∃ m, exec (.initialisingWriteResponse .error) s = .next { s with
      pass := { s.pass with port := .free }, alerts := { s.alerts.latch .memoryFault with mirror := m } }))

/-- A completed record of 16 words carries its lost-before count and a check word that makes the ones-complement
sum of its 32 halves FFFFh, and keeps every other field. -/
def Obligations.CompletedRecordPassesItsCheck : Prop :=
  ∀ (lost : Nat) (ws : List Word), ws.length = 16 → lost ≤ 255 →
    let full := completeRecord lost ws
    full.length = 16 ∧ onesSum full = 65535 ∧
    (∃ w0 : Word, full[0]? = some w0 ∧ w0.toNat % 256 = lost ∧ w0.toNat / 256 = (ws.getD 0 0).toNat / 256) ∧
    (∃ w15 : Word, full[15]? = some w15 ∧ w15.toNat / 65536 = (ws.getD 15 0).toNat / 65536) ∧
    ∀ k, 0 < k → k < 15 → full[k]? = ws[k]?

/-! ### The Tally Engine -/

/-- The idle engine takes the head update into hand with a loss count of 0; the expiry of a backoff requests the
read again with the count as it stands; a conditional write answered OK ends the update, answered ERROR it sends
it to the miss list with WRITE_FAULT and MEMORY_FAULT. That the loss count is cleared and the computed entry
dropped as soon as the service ends is deduced (log entry 25). Posting is held between the quiesce met and the
installation of an apply that changes the tally base. -/
def Obligations.TallyCycleTakesReadsAndWrites : Prop :=
  (∀ s : State, s.postingHeld = true ↔ s.setup.part = .applying .drain ∧ ∃ new old, s.setup.candidate = some new ∧
    s.setup.active = some old ∧ new.tallyBase ≠ old.tallyBase) ∧
  (∀ (s : State) (u : Update) (rest : List Update), s.steady = true → s.tally.state = .idle →
    s.tally.queue = u :: rest → s.postingHeld = false → ∃ m, exec .updateIntoHand s = .next { s with
      tally := { s.tally with losses := 0, lockedLoss := false, state := .readWait },
      alerts := { s.alerts with mirror := m } }) ∧
  (∀ s : State, s.steady = true → s.tally.state = .backoff → s.tally.backoff = some 0 →
    ∃ m, exec .backoffExpiry s = .next { s with
      tally := { s.tally with state := .readWait, backoff := none },
      alerts := { s.alerts with mirror := m } }) ∧
  (∀ (s : State) (txn : Txn) (u : Update) (rest : List Update), s.steady = true →
    s.pass.port = .internal .conditionalWrite txn → s.tally.queue = u :: rest →
    let done : Tally := { s.tally with
      queue := rest, state := .idle, losses := 0, lockedLoss := false, computed := none,
      reservation := none, backoff := none }
    (∃ m, exec (.conditionalWriteResponse .ok) s = .next { s with
      pass := { s.pass with port := .free }, tally := done, alerts := { s.alerts with mirror := m } }) ∧
    (∃ m, exec (.conditionalWriteResponse .error) s = .next
      (let x : Ledger := Ledger.miss .writeFault false u
         { tally := done, alerts := s.alerts.latch .memoryFault }
       { s with pass := { s.pass with port := .free }, tally := x.tally,
                alerts := { x.alerts with mirror := m } })))

/-- A posted update joins a queue of fewer than 32 and is otherwise turned away into the lost-tally totals. An
update sent to the miss list merges into the entry of its index, or makes a new one at the end of a list of fewer
than 16, or is turned away; TALLY_MISS is latched in each of these and at a turning away. Every field of a new and
of a merged entry is given: the reasons and the locked mark gather, the sums saturate with the flag, which latches
nothing more (deduced, log entry 24), and the posting line is kept. -/
def Obligations.UpdatesArePostedMissedOrTurnedAway : Prop :=
  (∀ (x : Ledger) (u : Update),
    (x.tally.queue.length < 32 → x.post u = { x with
      tally := { x.tally with queue := x.tally.queue ++ [u] } }) ∧
    (¬ x.tally.queue.length < 32 →
      let lost : Lost := { energy := min (x.tally.lost.energy + u.energy) (2 ^ 64 - 1),
                           pulled := min (x.tally.lost.pulled + u.pulled) (2 ^ 32 - 1),
                           packed := min (x.tally.lost.packed + u.packed) (2 ^ 32 - 1),
                           count := min (x.tally.lost.count + 1) (2 ^ 32 - 1), reason := .queueFull }
      x.post u = {
        tally := { x.tally with lost := lost },
        alerts := Alerts.latch .tallyMiss { x.alerts with owed := { x.alerts.owed with
          lostTally := x.alerts.owed.lostTally || decide (lost ≠ x.tally.lost) } } } ∧
      (x.post u).alerts.has .tallyMiss = true)) ∧
  (∀ (us : List Update) (x : Ledger), x.postAll us = us.foldl (fun y u => y.post u) x) ∧
  (∀ (x : Ledger) (u : Update) (reason : MissReason) (locked : Bool),
    let y := x.miss reason locked u
    y.alerts.has .tallyMiss = true ∧ y.tally.queue = x.tally.queue ∧
    { y.tally with misses := x.tally.misses, lost := x.tally.lost } = x.tally ∧
    y.alerts = Alerts.latch .tallyMiss { x.alerts with owed := { x.alerts.owed with
      lostTally := x.alerts.owed.lostTally || decide (y.tally.lost ≠ x.tally.lost) } } ∧
    ((∃ e ∈ x.tally.misses, e.entry = u.entry) →
      y.tally.misses = x.tally.misses.map (fun e => if e.entry = u.entry then e.merge reason locked u else e) ∧
      y.tally.lost = x.tally.lost) ∧
    ((∀ e ∈ x.tally.misses, e.entry ≠ u.entry) → x.tally.misses.length < 16 →
      y.tally.misses = x.tally.misses ++ [Miss.make reason locked u] ∧ y.tally.lost = x.tally.lost) ∧
    ((∀ e ∈ x.tally.misses, e.entry ≠ u.entry) → ¬ x.tally.misses.length < 16 →
      y.tally.misses = x.tally.misses ∧ y.tally.lost = {
        energy := min (x.tally.lost.energy + u.energy) (2 ^ 64 - 1),
        pulled := min (x.tally.lost.pulled + u.pulled) (2 ^ 32 - 1),
        packed := min (x.tally.lost.packed + u.packed) (2 ^ 32 - 1),
        count := min (x.tally.lost.count + 1) (2 ^ 32 - 1), reason := .listFull })) ∧
  (∀ (u : Update) (reason : MissReason) (locked : Bool) (e : Miss),
    let top32 := 2 ^ 32 - 1
    let top64 := 2 ^ 64 - 1
    Miss.make reason locked u = {
      entry := u.entry, line := u.line, contention := decide (reason = .contention),
      readFault := decide (reason = .readFault), writeFault := decide (reason = .writeFault),
      locked := locked, count := 1, energy := min u.energy top64, pulled := min u.pulled top32,
      packed := min u.packed top32, changeover := min u.changeover top32, counted := min u.count top32,
      saturated := decide (top64 < u.energy) || decide (top32 < u.pulled) || decide (top32 < u.packed) ||
        decide (top32 < u.changeover) || decide (top32 < u.count),
      time := u.time } ∧
    e.merge reason locked u = {
      entry := e.entry, line := e.line, contention := e.contention || decide (reason = .contention),
      readFault := e.readFault || decide (reason = .readFault),
      writeFault := e.writeFault || decide (reason = .writeFault),
      locked := e.locked || locked, count := min (e.count + 1) 255,
      energy := min (e.energy + u.energy) top64, pulled := min (e.pulled + u.pulled) top32,
      packed := min (e.packed + u.packed) top32, changeover := min (e.changeover + u.changeover) top32,
      counted := min (e.counted + u.count) top32,
      saturated := e.saturated || decide (top64 < e.energy + u.energy) ||
        decide (top32 < e.pulled + u.pulled) || decide (top32 < e.packed + u.packed) ||
        decide (top32 < e.changeover + u.changeover) || decide (top32 < e.counted + u.count),
      time := u.time })

/-- The answer to a reserve-read: an unlocked entry gives the computed entry, saturating field by field with
sticky flags, and a conditional write with the reservation as it stands; a locked entry is a loss, reported as
TALLY_LOSS, writes nothing and marks the update, which the eighth loss sends to the miss list with CONTENTION and
that mark; an ERROR sends the update to the miss list with READ_FAULT and MEMORY_FAULT. The backoff is a free
value (log entry 1). That the loss count and the locked flag are cleared as soon as the service ends, and that the
computed entry is dropped then and at a loss, is deduced (log entry 25), and that a computed entry of a retry
latches SATURATION again is the model's choice (log entry 34). -/
def Obligations.ReserveReadFormsTheComputedEntry : Prop :=
  ∀ (s : State) (txn : Txn) (u : Update) (rest : List Update), s.steady = true →
    s.pass.port = .internal .reserveRead txn → s.tally.queue = u :: rest →
    let served : Tally := { s.tally with
      queue := rest, state := .idle, losses := 0, lockedLoss := false, computed := none,
      reservation := none, backoff := none }
    (∀ d : Vector Word 8, (d[0]).getLsbD 24 = false →
      let energy := (d[1]).toNat + 2 ^ 32 * (d[2]).toNat + u.energy
      let passes : Nat → Prop := fun k =>
        (k = 0 ∧ 2 ^ 64 ≤ energy) ∨ (k = 1 ∧ 2 ^ 32 ≤ (d[3]).toNat + u.pulled) ∨
        (k = 2 ∧ 2 ^ 32 ≤ (d[4]).toNat + u.packed) ∨ (k = 3 ∧ 2 ^ 32 ≤ (d[5]).toNat + u.changeover) ∨
        (k = 4 ∧ 2 ^ 32 ≤ (d[6]).toNat + u.count)
      ∃ t w0, exec (.reserveReadResponse (.ok d)) s = .next t ∧
      t = { s with
        pass := { s.pass with port := .free },
        tally := { s.tally with
          state := .writeWait,
          computed := some [w0, BitVec.ofNat 32 (min energy (2 ^ 64 - 1)),
            BitVec.ofNat 32 (min energy (2 ^ 64 - 1) / 2 ^ 32),
            BitVec.ofNat 32 (min ((d[3]).toNat + u.pulled) (2 ^ 32 - 1)),
            BitVec.ofNat 32 (min ((d[4]).toNat + u.packed) (2 ^ 32 - 1)),
            BitVec.ofNat 32 (min ((d[5]).toNat + u.changeover) (2 ^ 32 - 1)),
            BitVec.ofNat 32 (min ((d[6]).toNat + u.count) (2 ^ 32 - 1)), BitVec.ofNat 32 u.time] },
        alerts := t.alerts } ∧
      w0.getLsbD 24 = false ∧ (∀ b, 25 ≤ b → b < 32 → w0.getLsbD b = (d[0]).getLsbD b) ∧
      (∀ b, 21 ≤ b → b < 24 → w0.getLsbD b = (d[0]).getLsbD b) ∧
      (∀ k, k < 5 → (w0.getLsbD (16 + k) = true ↔ (d[0]).getLsbD (16 + k) = true ∨ passes k)) ∧
      w0.toNat % 65536 = min ((d[0]).toNat % 65536 + 1) 65535 ∧
      (t.alerts.has .saturation = true ↔ s.alerts.has .saturation = true ∨ ∃ k, passes k) ∧
      (∀ b, b ≠ .saturation → t.alerts.has b = s.alerts.has b) ∧
      t.alerts.counters = s.alerts.counters) ∧
    (∀ d : Vector Word 8, (d[0]).getLsbD 24 = true →
      ∃ t, exec (.reserveReadResponse (.ok d)) s = .next t ∧ t.tally.reservation = none ∧
      t.tally.computed = none ∧ t.pass = { s.pass with port := .free } ∧
      (s.tally.losses + 1 < 8 → t.tally.losses = s.tally.losses + 1 ∧ t.tally.lockedLoss = true ∧
        t.tally.state = .backoff ∧ t.tally.queue = s.tally.queue ∧ t.tally.misses = s.tally.misses ∧
        ∃ k m, k < 2 ^ min (s.tally.losses + 1) 5 ∧ t = { s with
          pass := { s.pass with port := .free },
          tally := { s.tally with
            losses := s.tally.losses + 1, lockedLoss := true, computed := none, reservation := none,
            state := .backoff, backoff := some k, draws := s.tally.draws + 1 },
          alerts := { s.alerts.report s.cfg .tallyLoss with mirror := m } }) ∧
      (¬ s.tally.losses + 1 < 8 → t.tally.queue = rest ∧ t.tally.state = .idle ∧
        t.alerts.has .tallyMiss = true ∧ ∃ m, t =
          (let x : Ledger := Ledger.miss .contention true u
             { tally := served, alerts := s.alerts.report s.cfg .tallyLoss }
           { s with pass := { s.pass with port := .free }, tally := x.tally,
                    alerts := { x.alerts with mirror := m } }))) ∧
    (∃ m, exec (.reserveReadResponse .error) s = .next
      (let x : Ledger := Ledger.miss .readFault false u
         { tally := served, alerts := s.alerts.latch .memoryFault }
       { s with pass := { s.pass with port := .free }, tally := x.tally,
                alerts := { x.alerts with mirror := m } }))

/-! ### Windows and records -/

/-- A complete record loses an inject flag with CHECK_FAIL, fails its check with CHECK_FAIL, is not admitted with
ADMIT_DROP, finds the queue full and is SPILLED, or joins the queue: the accepted total rises and the hold request
rises at the high-water mark. The fields of a record are taken from its words. -/
def Obligations.CompleteRecordIsCheckedAdmittedAndQueued : Prop :=
  (∀ (m : Image) (i : Fin 4) (ws : List Word) (x : Desk),
    let y := x.complete m i ws
    let r := tapRecordOf ws
    ((x.window i).inject = true → y = {
      intake := { x.intake with windows := x.intake.windows.set i { x.window i with inject := false } },
      alerts := x.alerts.report m .checkFail }) ∧
    ((x.window i).inject = false → onesSum ws ≠ 65535 →
      y = { x with alerts := x.alerts.report m .checkFail }) ∧
    ((x.window i).inject = false → onesSum ws = 65535 → m.admits r.channel = false →
      y = { x with alerts := x.alerts.report m .admitDrop }) ∧
    ((x.window i).inject = false → onesSum ws = 65535 → m.admits r.channel = true →
      x.intake.queue.length < 64 → y = { x with intake := { x.intake with
        queue := x.intake.queue ++ [r], accepted := x.intake.accepted + 1,
        holdRequest := x.intake.holdRequest || decide (m.highWater ≤ x.intake.queue.length + 1) } }) ∧
    ((x.window i).inject = false → onesSum ws = 65535 → m.admits r.channel = true →
      ¬ x.intake.queue.length < 64 → y = { x with alerts := x.alerts.report m .spilled })) ∧
  (∀ h w1 t1 t2 v : Word,
    let kind : RecordKind := if h.toNat / 2 ^ 20 % 16 = 2 then .resetNotice else .reading
    let seq : BitVec 8 := BitVec.ofNat 8 h.toNat
    tapRecordOf [h, w1, v] =
      { kind := kind, sequence := seq, channel := w1.toNat % 4096, tags := [], value := v } ∧
    tapRecordOf [h, w1, t1, v] =
      { kind := kind, sequence := seq, channel := w1.toNat % 4096, tags := [t1], value := v } ∧
    tapRecordOf [h, w1, t1, t2, v] =
      { kind := kind, sequence := seq, channel := w1.toNat % 4096, tags := [t1, t2], value := v })

/-- What a header word is and the length it announces (R21), what a marker word is (R26), which window a burst's
first word lies in, and which of its words are examined, up to the window's last word (R20). A burst outside every
window, or with the spill mark, forms no record. A window burst at an empty buffer starts a record at a header
word and is stray otherwise; a record that would pass the window's end or lacks byte enables is stray; one longer
than the burst waits in the buffer with the assembly timer running. A burst at the expected address continues the
partial record, abandons it for want of byte enables, or completes it, the words after it being scanned as after
any record; a burst elsewhere is stray and, if it starts with a header word, the partial record is abandoned and a
new one starts. -/
def Obligations.WindowBurstsFormRecordsOrStray : Prop :=
  (∀ w : WriteWord,
    let kind := w.data.toNat / 2 ^ 20 % 16
    let tags := w.data.toNat / 2 ^ 16 % 16
    let len := w.data.toNat / 2 ^ 8 % 256
    (∀ n, headerLength w = some n ↔ w.enables = 15 ∧ w.data.toNat / 2 ^ 24 = 0x5C ∧ (kind = 1 ∨ kind = 2) ∧
      tags ≤ 2 ∧ len = 3 + tags ∧ n = len) ∧
    (markerWord w = true ↔ w.enables = 15 ∧ w.data.toNat / 2 ^ 24 = 0x5C)) ∧
  (∀ (m : Image) (a : Nat),
    let holds (i : Fin 4) : Prop :=
      (m.window i).enabled = true ∧ (m.window i).base ≤ a ∧ a < (m.window i).base + 4 * (m.window i).size
    (∀ i, m.windowAt a = some i ↔ holds i ∧ ∀ j, j < i → ¬ holds j) ∧
    (m.windowAt a = none ↔ ∀ i, ¬ holds i)) ∧
  (∀ (w : Window) (a : Nat) (ws : List WriteWord) (k : Nat), w.base % 4 = 0 → a % 4 = 0 →
    (w.examined a ws)[k]? = if a + 4 * k < w.base + 4 * w.size then ws[k]? else none) ∧
  (
    ∀ (m : Image) (a : Nat) (ws : List WriteWord) (x : Desk), ws.length ≤ 16 →
      (m.windowAt a = none → ∀ spill, x.notice m spill a ws = x) ∧
      (∀ i, m.windowAt a = some i →
        let part := (m.window i).examined a ws
        x.notice m true a ws = { x with alerts := x.alerts.report m .spilled } ∧
        x.notice m false a ws = x.burst m i a part) ∧
      (∀ (i : Fin 4) (w : WriteWord) (rest : List WriteWord), ws = w :: rest →
        (x.window i).partialRecord = none →
        let stray : Desk := { x with alerts := x.alerts.report m .stray }
        (headerLength w = none → x.burst m i a ws = stray) ∧
        ∀ len, headerLength w = some len →
          ((m.window i).base + 4 * ((m.window i).size - 1) < a + 4 * (len - 1) → x.burst m i a ws = stray) ∧
          (a + 4 * (len - 1) ≤ (m.window i).base + 4 * ((m.window i).size - 1) →
            ((∃ u ∈ ws.take len, u.enables ≠ 15) → x.burst m i a ws = stray) ∧
            ((∀ u ∈ ws.take len, u.enables = 15) →
              (ws.length < len → x.burst m i a ws = { x with intake := { x.intake with
                windows := x.intake.windows.set i { x.window i with
                  partialRecord := some { words := ws.map WriteWord.data, length := len,
                                          expected := a + 4 * ws.length },
                  timer := some (m.window i).timeout } } }) ∧
              (len ≤ ws.length →
                let y := x.complete m i ((ws.take len).map WriteWord.data)
                (ws.length = len → x.burst m i a ws = y) ∧
                (∀ u us, ws.drop len = u :: us →
                  (headerLength u = none → markerWord u = false → x.burst m i a ws = y) ∧
                  (headerLength u = none → markerWord u = true →
                    x.burst m i a ws = { y with alerts := y.alerts.report m .stray }) ∧
                  ((headerLength u).isSome = true →
                    x.burst m i a ws = y.burst m i (a + 4 * len) (u :: us)))))))) ∧
  (
    ∀ (m : Image) (i : Fin 4) (a : Nat) (w : WriteWord) (rest : List WriteWord) (p : Partial) (x : Desk),
      rest.length ≤ 15 → (x.window i).partialRecord = some p → p.words.length < p.length →
      let ws := w :: rest
      let missing := p.length - p.words.length
      let emptied : Desk := { x with intake := { x.intake with
        windows := x.intake.windows.set i { x.window i with partialRecord := none, timer := none } } }
      let abandoned : Desk := { emptied with alerts := x.alerts.report m .stray }
      (a = p.expected →
        ((∃ u ∈ ws.take missing, u.enables ≠ 15) → x.burst m i a ws = abandoned) ∧
        ((∀ u ∈ ws.take missing, u.enables = 15) →
          (ws.length < missing → x.burst m i a ws = { x with intake := { x.intake with
            windows := x.intake.windows.set i { x.window i with
              partialRecord := some { p with words := p.words ++ ws.map WriteWord.data,
                                             expected := p.expected + 4 * ws.length } } } }) ∧
          (ws.length = missing → x.burst m i a ws =
            emptied.complete m i (p.words ++ ws.map WriteWord.data)) ∧
          (∀ u us, ws.drop missing = u :: us →
            let y := emptied.complete m i (p.words ++ (ws.take missing).map WriteWord.data)
            (headerLength u = none → markerWord u = false → x.burst m i a ws = y) ∧
            (headerLength u = none → markerWord u = true →
              x.burst m i a ws = { y with alerts := y.alerts.report m .stray }) ∧
            ((headerLength u).isSome = true →
              x.burst m i a ws = y.burst m i (a + 4 * missing) (u :: us))))) ∧
      (a ≠ p.expected → headerLength w = none →
        x.burst m i a ws = { x with alerts := x.alerts.report m .stray }) ∧
      (a ≠ p.expected → (headerLength w).isSome = true → x.burst m i a ws = abandoned.burst m i a ws))

/-! ### Matchers -/

/-- R46 and R47: the CRC-16 of the selected words starts at FFFFh, is fed each word's 32 bits from bit 31 down
to bit 0, shifts and combines with 8005h where the bit leaving bit 15 differs from the bit fed, and is not
inverted; the byte 00h leaves FD02h. A burst that a matcher tests matches exactly when the result equals the
expected CRC; a burst that matches nothing changes nothing. -/
def Obligations.CrcOfTheSelectedWordsDecidesAMatch : Prop :=
  crc16 [] = 0xFFFF#16 ∧
  (∀ (ws : List Word) (w : Word), crc16 (ws ++ [w]) =
    ((List.range 32).map (fun k => w.getLsbD (31 - k))).foldl crcBit (crc16 ws)) ∧
  (∀ (r : BitVec 16) (b : Bool), crcBit r b =
    if r.getLsbD 15 = b then r <<< 1 else (r <<< 1) ^^^ 0x8005#16) ∧
  (List.range 9).map (fun k => (List.replicate k false).foldl crcBit 0xFFFF#16) =
    [0xFFFF#16, 0x7FFB#16, 0xFFF6#16, 0x7FE9#16, 0xFFD2#16, 0x7FA1#16, 0xFF42#16, 0x7E81#16, 0xFD02#16] ∧
  (∀ (t : Matcher) (a : Nat) (ws : List WriteWord),
    let tested := t.enabled = true ∧ t.base ≤ a ∧ a + 4 * ws.length ≤ t.base + 4 * t.size ∧
      (∀ i, i < 16 → t.mask.getLsbD i = true → ∃ w, ws[t.offset + i]? = some w ∧ w.enables = 15) ∧
      (t.action = .jobMark → ∀ k, k = t.codeOffset ∨ k = t.weightOffset →
        ∃ w, ws[k]? = some w ∧ w.enables = 15)
    let selected := ((List.range 16).filter (fun i => t.mask.getLsbD i)).map
      (fun i => wordAt ws (t.offset + i))
    (t.matched a ws = true ↔ tested ∧ (crc16 selected).toNat = t.expected)) ∧
  (∀ (m : Image) (a : Nat) (ws : List WriteWord) (s : State),
    (∀ i : Fin 16, (m.matcher i).matched a ws = false) → s.matchNotice m a ws = s)

/-! ### Fetch and apply -/

/-- A fetch burst answered OK replaces its 16 words of the shadow and moves the fetch position on; the 128th forms
the candidate. One answered ERROR ends the fetch in UNSET with FETCH_FAULT, every group owed and the command word
taken as seen. -/
def Obligations.FetchBurstsFillTheShadow : Prop :=
  ∀ (s : State) (txn : Txn), s.steady = true → s.setup.part = .fetching →
    s.pass.port = .internal .fetch txn →
    let k := s.setup.fetchPosition
    (∀ d : Vector Word 16, s.setup.shadow.wf = true →
      ∃ sh : Image, exec (.fetchReadResponse (.ok d)) s = .next { s with
        pass := { s.pass with port := .free },
        setup := { s.setup with
          shadow := sh, fetchPosition := k + 1,
          candidate := if k + 1 = 128 then some (sh.below 1352) else s.setup.candidate } } ∧
      (∀ i : Fin 16, sh.get (16 * k + i) = d[i]) ∧
      ∀ i, i < 16 * k ∨ 16 * k + 16 ≤ i → sh.get i = s.setup.shadow.get i) ∧
    (∃ m, exec (.fetchReadResponse .error) s = .next { s with
      pass := { s.pass with port := .free },
      setup := { s.setup with part := .unset, candidate := none, lastCommand := s.setup.shadow.get 2 },
      alerts := { s.alerts with
        latched := s.alerts.latched ||| AlertBit.memoryFault.mask ||| AlertBit.setupRejected.mask,
        applyResult := { generation := 0, code := 9, index := k }, owed := .everything, mirror := m } })

/-- The end of a whole fetch: a candidate that fails validation leaves the part UNSET with its reject code; a
valid one is installed against no setup and the part is ACTIVE: windows empty, every enabled entry UNSEEN, every
line of a kind RUNNING with its accounts opened and its ring restarted, boundaries from the clock, counts 0, the
hold request tested against the new marks (log entry 5 for the marks of a release). Every group is owed and the
command word is taken as seen. Where the shadow's generation has changed meanwhile, an apply starts at once. A
mirror write stands requested at its end. -/
def Obligations.FetchEndsInstalledOrRejected : Prop :=
  ∀ (s : State) (new : Image), s.steady = true → s.setup.part = .fetching →
    s.setup.fetchPosition = 128 → s.setup.candidate = some new →
    let same := s.setup.shadow.get 1 = new.get 1
    ∃ t, exec .fetchValidationCompletion s = .next t ∧
    t.setup = { s.setup with
      lastCommand := s.setup.shadow.get 2,
      active := if new.validate s.setup.blockAddress = none then some new else s.setup.active,
      candidate := if same then none else some (s.setup.shadow.below 1352),
      part := if ¬same then .applying .validate
        else if new.validate s.setup.blockAddress = none then .active else .unset } ∧
    t.alerts.mirror.isSome = true ∧
    (∀ g, t.alerts.owed.has g = true) ∧
    (∀ r, new.validate s.setup.blockAddress = some r →
      t.alerts.applyResult = { generation := new.get 1, code := r.code, index := r.index } ∧
      t.alerts.has .setupRejected = true ∧ t.channels = s.channels ∧ t.lines = s.lines ∧
      t.intake = s.intake ∧ t.writer = s.writer ∧ t.pass = s.pass ∧ t.alerts.counters = s.alerts.counters ∧
      t.alerts.reportTimer = s.alerts.reportTimer) ∧
    (new.validate s.setup.blockAddress = none →
      t.alerts.applyResult = { generation := new.get 1, code := 0, index := 0 } ∧
      t.alerts.has .setupApplied = true ∧ t.alerts.reportTimer = some (new.reportInterval) ∧
      t.channels.pause = false ∧
      (∀ i : Fin 4, t.intake.windows[i] = { partialRecord := none, timer := none, inject := false }) ∧
      (∀ n : Fin 16, new.kind n ≠ .none →
        t.lines.lines[n] = { s.lines.lines[n] with
          state := .running, changeoverPending := false, timer := none, jobCode := 0, unitWeight := 0,
          bin := .opened s.lines.clock.toNat .clear, epoch := .opened s.lines.clock.toNat,
          job := .opened s.lines.clock.toNat, pulledResidue := 0, packedResidue := 0,
          summarySaturation := false } ∧
        t.writer.rings[n] = { producer := 0, shadow := 0, overrun := 0, pendingLost := 0,
                              reserved := false, initOwed := true }) ∧
      (∀ n : Fin 16, new.kind n = .none → t.lines.lines[n] = s.lines.lines[n] ∧
        t.writer.rings[n] = { producer := 0, shadow := 0, overrun := 0, pendingLost := 0,
                              reserved := false, initOwed := false }) ∧
      (∀ h : Fin 16, t.lines.bounds[h] =
        if new.isHead h then some (new.boundAt h s.lines.clock.toNat) else none) ∧
      (∀ e : Fin 256, t.channels.meters[e] = if (new.channel e).enabled = true
        then { s.channels.meters[e] with
          state := .unseen, candidate := none, suspectCount := none, lastSequence := none, gap := 0,
          timer := none, residue := 0, staleInBin := false }
        else s.channels.meters[e]) ∧
      (∀ i : Fin 4, t.alerts.counters[i] = { s.alerts.counters[i] with count := 0 }) ∧
      (let drops := s.intake.holdRequest = true ∧ s.intake.queue.length < new.highWater ∧
         s.intake.queue.length ≤ new.lowWater
       let outside := ∃ a ws, s.pass.heldWrite = some (a, ws) ∧ new.windowAt a = none
       (t.intake.holdRequest = true ↔
         new.highWater ≤ s.intake.queue.length ∨
         (s.intake.holdRequest = true ∧ new.lowWater < s.intake.queue.length)) ∧
       { t.pass with spilling := s.pass.spilling, releaseDue := s.pass.releaseDue } = s.pass ∧
       (t.pass.spilling = true ↔ s.pass.spilling = true ∧ ¬drops) ∧
       (t.pass.releaseDue = true ↔ s.pass.releaseDue = true ∨ outside ∨
         (drops ∧ s.pass.spilling = false ∧ s.pass.heldWrite.isSome = true)))) ∧
    t.lines.clock = s.lines.clock ∧ t.lines.handOver = s.lines.handOver ∧
    t.lines.pulses = s.lines.pulses ∧ t.lines.advancesDue = s.lines.advancesDue ∧
    t.channels.inHand = s.channels.inHand ∧ t.writer.queue = s.writer.queue ∧ t.writer.step = s.writer.step ∧
    t.intake.accepted = s.intake.accepted ∧ t.alerts.commandResult = s.alerts.commandResult ∧
    t.alerts.readHold = s.alerts.readHold ∧
    t.tally = s.tally ∧ t.pending = s.pending ∧ t.inReset = s.inReset ∧ t.intake.queue = s.intake.queue

/-- The end of an apply's validation: a valid candidate brings phase QUIESCE with the pause; a failure ends the
apply in the state it started from, with its reject code and SETUP_REJECTED. The waiting command is then dealt
with, and after it a pending apply is started. QUIESCE is met with no record in hand, no queued
record of a line whose ring leaves or restarts, no snapshot of a line whose ring leaves, and, where the tally base
changes, an empty tally queue and no reservation: the jobs of lines that stop being FORMING lines are closed, then
each old group with a changed line, with its epoch; the phase becomes DRAIN. While one of these stands, QUIESCE is
not met, and while such a record or snapshot stands, no installation is made. The job closes are made in increasing
line number (deduced, log entry 27); that the phases wait for a record of a line that was NONE and gets a ring too,
which R157 does not name, is deduced from R110 and R120 (log entry 33). -/
def Obligations.ValidationAndQuiesceLeadToTheForcedClose : Prop :=
  (
    (∀ (s : State) (new : Image), s.steady = true → s.setup.part = .applying .validate →
      s.closesTaken = true → s.setup.candidate = some new →
      (new.validate s.setup.blockAddress = none → ∃ m, exec .validationCompletion s = .next { s with
        setup := { s.setup with part := .applying .quiesce },
        channels := { s.channels with pause := true }, alerts := { s.alerts with mirror := m } }) ∧
      (∀ r, new.validate s.setup.blockAddress = some r → ∃ m, exec .validationCompletion s = .next
        (let u := State.afterApply { s with
           setup := { s.setup with
             part := if s.setup.active.isSome then .active else .unset, candidate := none },
           alerts := { s.alerts with
             latched := s.alerts.latched ||| AlertBit.setupRejected.mask,
             applyResult := { generation := new.get 1, code := r.code, index := r.index },
             owed := { s.alerts.owed with
               applyResult := true, realTime := true,
               latched := s.alerts.owed.latched || !s.alerts.has .setupRejected } } }
         { u with alerts := { u.alerts with mirror := m } }))) ∧
    (∀ u : State,
      (u.setup.waiting = none → u.setup.pendingApply = false → u.afterApply = u) ∧
      (u.setup.waiting = none → u.setup.pendingApply = true → u.afterApply = { u with
        setup := { u.setup with
          pendingApply := false, part := .applying .validate,
          candidate := some (u.setup.shadow.below 1352) },
        alerts := { u.alerts with owed := { u.alerts.owed with realTime := true } } }) ∧
      (∀ w arg, u.setup.waiting = some (w, arg) → u.setup.pendingApply = false →
        u.afterApply = State.dealWith w arg { u with setup := { u.setup with waiting := none } }) ∧
      (∀ w arg, u.setup.waiting = some (w, arg) → u.setup.pendingApply = true → u.afterApply =
        (let v := State.dealWith w arg { u with setup := { u.setup with waiting := none } }
         { v with
           setup := { v.setup with
             pendingApply := false, part := .applying .validate,
             candidate := some (u.setup.shadow.below 1352) },
           alerts := { v.alerts with owed := { v.alerts.owed with realTime := true } } })))) ∧
  (
    (∀ (s : State) (new : Image), s.steady = true → s.setup.part = .applying .quiesce →
      s.closesTaken = true → s.setup.candidate = some new → s.channels.inHand = none →
      (∀ r ∈ s.writer.queue, leavingRing s.cfg new r.line = false ∧ ringRestarts s.cfg new r.line = false) →
      (∀ k ∈ s.lines.handOver, leavingRing s.cfg new k.2 = false) →
      ((∃ old, s.setup.active = some old ∧ new.tallyBase ≠ old.tallyBase) →
        s.tally.queue = [] ∧ s.tally.reservation = none) →
      ∃ m, exec .quiesceMet s = .next
        (let old := s.cfg
         let jobs := (List.finRange 16).filter (fun n =>
           decide (old.kind n = .forming ∧ new.kind n ≠ .forming))
         let heads := (List.finRange 16).filter (fun h =>
           decide (old.isHead h = true ∧ ∃ n ∈ old.members h, lineChanges old new n = true))
         let x := heads.foldl (fun x h => x.closeGroup old h true)
           (jobs.foldl (fun x n => x.closeJob n 0) s.books)
         { s with
           channels := x.channels, lines := x.lines, tally := x.ledger.tally,
           alerts := { x.ledger.alerts with mirror := m },
           setup := { s.setup with part := .applying .drain } })) ∧
    (∀ (s : State) (new : Image), s.setup.candidate = some new →
      ((∃ r ∈ s.writer.queue, leavingRing s.cfg new r.line = true ∨ ringRestarts s.cfg new r.line = true) ∨
       ∃ k ∈ s.lines.handOver, leavingRing s.cfg new k.2 = true) →
      exec .quiesceMet s = .next s ∧ exec .installation s = .next s) ∧
    (∀ (s : State) (old new : Image), s.setup.candidate = some new → s.setup.active = some old →
      s.channels.inHand.isSome = true ∨ (new.tallyBase ≠ old.tallyBase ∧
        (s.tally.queue ≠ [] ∨ s.tally.reservation ≠ none)) → exec .quiesceMet s = .next s) ∧
    (∀ (old new : Image) (n : Fin 16),
      (ringRestarts old new n = true ↔ new.kind n ≠ .none ∧
        (old.kind n = .none ∨ old.ringBase n ≠ new.ringBase n ∨ old.ringSize n ≠ new.ringSize n)) ∧
      (leavingRing old new n = true ↔ old.kind n ≠ .none ∧
        (new.kind n = .none ∨ old.ringBase n ≠ new.ringBase n ∨ old.ringSize n ≠ new.ringSize n)) ∧
      (lineChanges old new n = true ↔
        old.kind n ≠ new.kind n ∨ old.parent n ≠ new.parent n ∨ old.ringBase n ≠ new.ringBase n ∨
        old.ringSize n ≠ new.ringSize n ∨
        ((old.isHead n = true ∨ new.isHead n = true) ∧
          (old.binLength n ≠ new.binLength n ∨ old.epochLength n ≠ new.epochLength n)) ∨
        ((old.kind n = .furnace ∨ new.kind n = .furnace) ∧ old.children n ≠ new.children n))))

/-- The installation: the candidate becomes the active setup and the part ACTIVE with SETUP_APPLIED; each unit
takes its part in the one step. A window, a line, a group, a ring and a counter that the new setup changes starts
afresh, a line with its snapshots kept and its gram residues kept between FURNACE and FORMING, and an unchanged
one is kept, a counter's select being compared as a set of classes; a channel entry is kept, made UNSEEN or
retired by the table of R78; the hold request is tested against the new marks, and its drop ends spill or, like a
burst that now waits outside every window, marks a release (log entry 5); the rest of the Pass Controller stays.
SPILL_EDGE and STALE_EDGE follow the edges of their conditions by the new selects (the model's choice, log entry
20). Then the waiting command and the pending apply are dealt with. That a changed interval drops a due expiry of
the report timer is the model's choice (log entry 35), and that no record of a line that was NONE and gets a ring
may be queued is deduced (log entry 33). -/
def Obligations.InstallationPutsTheCandidateInForce : Prop :=
  ∀ (s : State) (new : Image), s.steady = true → s.setup.part = .applying .drain →
    s.closesTaken = true → s.setup.candidate = some new →
    (∀ r ∈ s.writer.queue, leavingRing s.cfg new r.line = false ∧ ringRestarts s.cfg new r.line = false) →
    (∀ k ∈ s.lines.handOver, leavingRing s.cfg new k.2 = false) →
    ∃ (u : State) (m : Option Group), exec .installation s = .next
      (let v := u.afterApply
       { v with alerts := { v.alerts with mirror := m } }) ∧
    u.setup = { s.setup with active := some new, candidate := none, part := .active } ∧
    u.channels.pause = false ∧ u.alerts.applyResult = { generation := new.get 1, code := 0, index := 0 } ∧
    u.alerts.has .setupApplied = true ∧ u.alerts.owed.applyResult = true ∧
    u.alerts.owed.realTime = true ∧ u.tally = s.tally ∧ u.intake.queue = s.intake.queue ∧
    u.intake.accepted = s.intake.accepted ∧ u.writer.queue = s.writer.queue ∧
    u.writer.step = s.writer.step ∧ u.lines.handOver = s.lines.handOver ∧ u.lines.clock = s.lines.clock ∧
    (∀ i : Fin 4, u.intake.windows[i] =
      if s.setup.active.isSome = true ∧ s.cfg.window i = new.window i then s.intake.windows[i]
      else { partialRecord := none, timer := none, inject := false }) ∧
    (∀ n : Fin 16, s.cfg.kind n = new.kind n → u.lines.lines[n] = s.lines.lines[n]) ∧
    (∀ n : Fin 16, s.cfg.kind n ≠ new.kind n →
      let l := s.lines.lines[n]
      let now := s.lines.clock.toNat
      let emptied := s.cfg.kind n = .none ∨ new.kind n = .none
      u.lines.lines[n] = {
        state := if new.kind n = .none then .idle else .running, changeoverPending := false, timer := none,
        jobCode := 0, unitWeight := 0, bin := .opened now .clear, closing := l.closing,
        epoch := .opened now, epochSnap := l.epochSnap, job := .opened now, jobSnap := l.jobSnap,
        pulledResidue := if emptied then 0 else l.pulledResidue,
        packedResidue := if emptied then 0 else l.packedResidue, summarySaturation := false }) ∧
    (∀ h : Fin 16, u.lines.bounds[h] =
      if new.isHead h = true then
        (if s.cfg.isHead h = true ∧ ∀ n ∈ new.members h, lineChanges s.cfg new n = false
         then s.lines.bounds[h] else some (new.boundAt h s.lines.clock.toNat))
      else none) ∧
    (∀ n : Fin 16, u.writer.rings[n] =
      if new.kind n = .none then { producer := 0, shadow := 0, overrun := 0, pendingLost := 0,
                                   reserved := false, initOwed := false }
      else if s.cfg.kind n = .none ∨ s.cfg.ringBase n ≠ new.ringBase n ∨ s.cfg.ringSize n ≠ new.ringSize n
      then { producer := 0, shadow := 0, overrun := 0, pendingLost := 0, reserved := false,
             initOwed := true }
      else s.writer.rings[n]) ∧
    (∀ e : Fin 256,
      let c := s.cfg.channel e
      let d := new.channel e
      let m := s.channels.meters[e]
      let same := c.channel = d.channel ∧ c.line = d.line ∧ c.kind = d.kind ∧ c.width = d.width ∧
        (c.kind = .energy ∨ c.role = d.role)
      let stopped : Meter := { m with
        candidate := none, suspectCount := none, lastSequence := none, gap := 0, timer := none,
        staleInBin := false }
      u.channels.meters[e] =
        if c.enabled = true ∧ d.enabled = false then { stopped with state := .retired }
        else if d.enabled = true ∧ ¬(c.enabled = true ∧ same) then { stopped with state := .unseen, residue := 0 }
        else m) ∧
    u.channels.inHand = s.channels.inHand ∧
    (u.alerts.has .staleEdge = true ↔ s.alerts.has .staleEdge = true ∨
      (s.channels.anyStale = false ∧ u.channels.anyStale = true) ∨
      (s.channels.anyStale = true ∧ u.channels.anyStale = false ∧ new.selectsBoth .anyStale = true)) ∧
    (∀ b, b ≠ .setupApplied → b ≠ .spillEdge → b ≠ .staleEdge → u.alerts.has b = s.alerts.has b) ∧
    (let drops := s.intake.holdRequest = true ∧ s.intake.queue.length < new.highWater ∧
       s.intake.queue.length ≤ new.lowWater
     let outside := ∃ a ws, s.pass.heldWrite = some (a, ws) ∧ new.windowAt a = none
     (u.intake.holdRequest = true ↔
       new.highWater ≤ s.intake.queue.length ∨
       (s.intake.holdRequest = true ∧ new.lowWater < s.intake.queue.length)) ∧
     { u.pass with spilling := s.pass.spilling, releaseDue := s.pass.releaseDue } = s.pass ∧
     (u.pass.spilling = true ↔ s.pass.spilling = true ∧ ¬drops) ∧
     (u.alerts.has .spillEdge = true ↔ s.alerts.has .spillEdge = true ∨
       (drops ∧ s.pass.spilling = true ∧ new.selectsBoth .spilling = true)) ∧
     (u.pass.releaseDue = true ↔ s.pass.releaseDue = true ∨ outside ∨
       (drops ∧ s.pass.spilling = false ∧ s.pass.heldWrite.isSome = true))) ∧
    (∀ i : Fin 4, (u.alerts.counters[i]).latch = (s.alerts.counters[i]).latch ∧
      (u.alerts.counters[i]).count =
        if s.setup.active.isSome = true ∧
          ((s.cfg.firstClass i = new.firstClass i ∧ s.cfg.secondClass i = new.secondClass i) ∨
           (s.cfg.firstClass i = new.secondClass i ∧ s.cfg.secondClass i = new.firstClass i))
        then (s.alerts.counters[i]).count else 0) ∧
    (s.setup.active.isSome = true → s.cfg.reportInterval = new.reportInterval →
      u.alerts.reportTimer = s.alerts.reportTimer) ∧
    (s.setup.active = none ∨ s.cfg.reportInterval ≠ new.reportInterval →
      u.alerts.reportTimer = some new.reportInterval) ∧
    u.pending = s.pending ∧ u.inReset = s.inReset

/-- The fields of the setup words are where section 10.4 puts them; validation tests them in its seven steps and
gives the code and the index of the first failure; and a setup that passes keeps its entries and spans apart. The
first clauses read every field of a header word, a window, matcher, line and channel descriptor and the admit map
off the bits of the words. The next ones give the reject for an image in canonical form, the model's own form (log
entry 26): code 1 for a wrong magic word, 2 for a check sum other than FFFFh (the ones-complement sum of the
halves of words 0 to 1351, words 2 to 4 as zero), 3 to 7 for the lowest header word, window, matcher, line and
channel entry that fails, 8 for the tally base, and none where nothing fails (R151 to R155, R41, R80, R54, R124).
A line of kind 3 takes part in the overlap tests with its ring (deduced, log entry 16), a wrong parent is reported
at the line that names it (deduced, log entry 17), and the base of a matcher's range is not tested for alignment
(the model's choice, log entry 30). The last ones are what a setup that passes has: the magic word; enabled channel
numbers apart, so that an enabled entry is the one its channel number finds; windows, rings, tally table, setup
block and status block that share no byte; and for every parent a furnace with at most seven children. -/
def Obligations.ValidSetupKeepsEntriesAndSpansApart : Prop :=
  (∀ m : Image,
    let field (i hi lo : Nat) : Nat := (m.get i).toNat / 2 ^ lo % 2 ^ (hi - lo + 1)
    let flag (i k : Nat) : Bool := (m.get i).getLsbD k
    m.magic = m.get 0 ∧ m.generation = m.get 1 ∧ m.tallyBase = (m.get 5).toNat ∧
    (m.refuses = true ↔ m.get 6 = 1) ∧
    m.highWater = (m.get 7).toNat ∧ m.lowWater = (m.get 8).toNat ∧ m.holdLimit = (m.get 9).toNat ∧
    m.reprimeThreshold = (m.get 10).toNat ∧
    (∀ i : Fin 4, m.firstClass i = field (11 + i) 3 0 ∧ m.secondClass i = field (11 + i) 7 4 ∧
      m.counterMode i = field (11 + i) 17 16 ∧ (m.automatic i = true ↔ field (11 + i) 17 16 = 1)) ∧
    m.reportInterval = field 15 15 0 ∧
    (∀ k, k < 22 → m.alertMask.getLsbD k = flag 16 k) ∧
    m.holdEdgeSelect = field 17 1 0 ∧ m.spillEdgeSelect = field 17 3 2 ∧ m.staleEdgeSelect = field 17 5 4 ∧
    (∀ i : Fin 4, m.window i = {
      enabled := flag (33 + 2 * i) 31, base := (m.get (32 + 2 * i)).toNat, size := field (33 + 2 * i) 16 0,
      timeout := field (33 + 2 * i) 27 20 }) ∧
    (∀ i : Fin 16, m.matcher i = {
      enabled := flag (41 + 6 * i) 31, base := (m.get (40 + 6 * i)).toNat, size := field (41 + 6 * i) 11 0 + 1,
      action := match field (41 + 6 * i) 29 28 with
        | 1 => .jobMark
        | 2 => .lineStop
        | 3 => .lineStart
        | _ => .invalid,
      target := Fin.ofNat 16 (field (41 + 6 * i) 27 24), weightOffset := field (42 + 6 * i) 27 24,
      codeOffset := field (42 + 6 * i) 23 20, offset := field (42 + 6 * i) 19 16,
      mask := BitVec.ofNat 16 (field (42 + 6 * i) 15 0), expected := field (43 + 6 * i) 15 0 }) ∧
    (∀ n : Fin 16,
      (m.kind n = match field (136 + 4 * n) 1 0 with
        | 1 => .furnace
        | 2 => .forming
        | _ => .none) ∧
      m.parent n = (if field (136 + 4 * n) 1 0 = 2 ∧ flag (136 + 4 * n) 7 = true
        then some (Fin.ofNat 16 (field (136 + 4 * n) 11 8)) else none) ∧
      m.epochLength n = field (136 + 4 * n) 22 16 ∧ m.changeoverDuration n = field (137 + 4 * n) 31 16 ∧
      m.binLength n = field (137 + 4 * n) 15 0 ∧ m.ringBase n = (m.get (138 + 4 * n)).toNat ∧
      m.ringSize n = field (139 + 4 * n) 15 0 ∧
      (m.isHead n = true ↔ m.kind n = .furnace ∨ (m.kind n = .forming ∧ m.parent n = none)) ∧
      (∀ k, k ∈ m.members n ↔ m.isHead n = true ∧ (k = n ∨ m.parent k = some n)) ∧
      m.children n = (List.finRange 16).filter (fun k => decide (m.parent k = some n))) ∧
    (∀ e : Fin 256, m.channelEnabled e = flag (200 + 4 * e) 31 ∧ m.channel e = {
      enabled := flag (200 + 4 * e) 31, width := field (200 + 4 * e) 29 24, role := field (200 + 4 * e) 19 18,
      kind := match field (200 + 4 * e) 17 16 with
        | 0 => .energy
        | 1 => .massDirect
        | 2 => .massCount
        | _ => .invalid,
      line := Fin.ofNat 16 (field (200 + 4 * e) 15 12), channel := field (200 + 4 * e) 11 0,
      factor := (m.get (201 + 4 * e)).toNat, ceiling := (m.get (202 + 4 * e)).toNat,
      timeout := field (203 + 4 * e) 31 16, tolerance := field (203 + 4 * e) 15 0 }) ∧
    (∀ (e : Fin 256) (c : Nat), m.entryOf c = some e ↔ m.channelEnabled e = true ∧ (m.channel e).channel = c ∧
      ∀ d, d < e → ¬ (m.channelEnabled d = true ∧ (m.channel d).channel = c)) ∧
    (∀ n, m.admits n = flag (1224 + n / 32) (n % 32))) ∧
  (∀ s : State,
    (s.setup.part = .active ∨ (∃ p, s.setup.part = .applying p) → s.cfg = s.setup.active.getD []) ∧
    (s.setup.part = .fetching ∨ s.setup.part = .unset → s.cfg = [])) ∧
  (∀ ws : List Word, onesSum ws = (ws.flatMap (fun w => [w.toNat / 65536, w.toNat % 65536])).foldl
    (fun sum half => if sum + half < 65536 then sum + half else sum + half - 65536 + 1) 0) ∧
  (∀ (m : Image) (block : Nat), m.wf = true →
    let field (i hi lo : Nat) : Nat := (m.get i).toNat / 2 ^ lo % 2 ^ (hi - lo + 1)
    let share (b l b' l' : Nat) : Prop := ∃ x, b ≤ x ∧ x < b + l ∧ b' ≤ x ∧ x < b' + l'
    let code (n : Fin 16) : Nat := field (136 + 4 * n) 1 0
    let head (n : Fin 16) : Prop := code n = 1 ∨ (code n = 2 ∧ (m.get (136 + 4 * n)).getLsbD 7 = false)
    let ring (n : Fin 16) : Nat := 64 * (m.ringSize n + 1)
    let magicBad : Prop := m.get 0 ≠ 0x57A4C0DE#32
    let checkBad : Prop := onesSum ((List.range 1352).map (fun i => if 2 ≤ i ∧ i ≤ 4 then 0 else m.get i)) ≠ 65535
    let headerBad (w : Nat) : Prop :=
      (w = 6 ∧ m.get 6 ≠ 0 ∧ m.get 6 ≠ 1) ∨
      (w = 7 ∧ ((m.get 7).toNat < 8 ∨ 64 < (m.get 7).toNat)) ∨
      (w = 8 ∧ (m.get 7).toNat ≤ (m.get 8).toNat) ∨
      (w = 9 ∧ ((m.get 9).toNat = 0 ∨ 255 < (m.get 9).toNat)) ∨
      (w = 10 ∧ ((m.get 10).toNat < 2 ∨ 7 < (m.get 10).toNat)) ∨
      (11 ≤ w ∧ w ≤ 14 ∧ (field w 3 0 = 0 ∨ 9 < field w 3 0 ∨ 9 < field w 7 4 ∨ field w 7 4 = field w 3 0 ∨
        1 < field w 17 16)) ∨
      (w = 15 ∧ field 15 15 0 = 0) ∨
      (w = 17 ∧ ∃ k, k < 3 ∧ (field 17 (2 * k + 1) (2 * k) = 0 ∨ field 17 (2 * k + 1) (2 * k) = 3))
    let windowBad (i : Fin 4) : Prop :=
      let w := m.window i
      w.enabled = true ∧
      (w.base % 4 ≠ 0 ∨ w.size < 64 ∨ 65536 < w.size ∨ w.timeout = 0 ∨ 0xFFFFFFFC < w.base + 4 * (w.size - 1) ∨
        (∃ j : Fin 4, j ≠ i ∧ (m.window j).enabled = true ∧
          share w.base (4 * w.size) (m.window j).base (4 * (m.window j).size)) ∨
        share w.base (4 * w.size) block 8448 ∨ share w.base (4 * w.size) m.tallyBase 33280 ∨
        (∃ n, (code n = 1 ∨ code n = 2) ∧ share w.base (4 * w.size) (m.ringBase n) (ring n)) ∨
        (∃ k : Fin 16, (m.matcher k).enabled = true ∧
          share w.base (4 * w.size) (m.matcher k).base (4 * (m.matcher k).size)))
    let matcherBad (i : Fin 16) : Prop :=
      let t := m.matcher i
      t.enabled = true ∧
      (0xFFFFFFFC < t.base + 4 * (t.size - 1) ∨ share t.base (4 * t.size) block 8448 ∨
        (∃ j : Fin 4, (m.window j).enabled = true ∧
          share t.base (4 * t.size) (m.window j).base (4 * (m.window j).size)) ∨
        (∃ n, code n ≠ 0 ∧ share t.base (4 * t.size) (m.ringBase n) (ring n)) ∨
        share t.base (4 * t.size) m.tallyBase 33280 ∨ t.mask = 0 ∨
        (∃ k, k < 16 ∧ t.mask.getLsbD k = true ∧ 15 < t.offset + k) ∨ field (41 + 6 * i) 29 28 = 0)
    let lineBad (n : Fin 16) : Prop :=
      code n ≠ 0 ∧
      (code n = 3 ∨
        ((m.get (136 + 4 * n)).getLsbD 7 = true ∧
          (code n = 1 ∨ code (Fin.ofNat 16 (field (136 + 4 * n) 11 8)) ≠ 1)) ∨
        (code n = 1 ∧ 7 < ((List.finRange 16).filter (fun k => decide (m.parent k = some n))).length) ∨
        (head n ∧ (m.binLength n < 60 ∨ 3600 < m.binLength n ∨ ¬ m.binLength n ∣ 86400 ∨ m.epochLength n < 1 ∨
          64 < m.epochLength n ∨ ¬ m.binLength n * m.epochLength n ∣ 86400)) ∨
        (code n = 2 ∧ 14400 < m.changeoverDuration n) ∨
        m.ringBase n % 64 ≠ 0 ∨ (¬ ∃ k, 4 ≤ k ∧ k ≤ 12 ∧ m.ringSize n = 2 ^ k) ∨ 2 ^ 32 < m.ringBase n + ring n ∨
        (∃ k, k ≠ n ∧ code k ≠ 0 ∧ share (m.ringBase n) (ring n) (m.ringBase k) (ring k)) ∨
        share (m.ringBase n) (ring n) block 8448 ∨ share (m.ringBase n) (ring n) m.tallyBase 33280)
    let channelBad (e : Fin 256) : Prop :=
      let c := m.channel e
      let kind := field (200 + 4 * e) 17 16
      c.enabled = true ∧
      (¬ (code c.line = 1 ∨ code c.line = 2) ∨ kind = 3 ∨ (kind = 0 ∧ c.role = 3) ∨ (kind ≠ 0 ∧ 1 < c.role) ∨
        (c.width ≠ 16 ∧ c.width ≠ 24 ∧ c.width ≠ 32) ∨ c.ceiling < 1 ∨ 2 ^ 31 < c.ceiling ∨
        2 ^ c.width ≤ c.ceiling ∨ c.timeout < 1 ∨
        ∃ k : Fin 256, k < e ∧ (m.channel k).enabled = true ∧ (m.channel k).channel = c.channel)
    let tallyBad : Prop :=
      m.tallyBase % 32 ≠ 0 ∨ 0xFFFFFFFF < m.tallyBase + 33279 ∨ share m.tallyBase 33280 block 8448
    (magicBad → m.validate block = some { code := 1, index := 0 }) ∧
    (¬ magicBad → checkBad → m.validate block = some { code := 2, index := 0 }) ∧
    (¬ magicBad → ¬ checkBad →
      (∀ w, headerBad w → (∀ v, v < w → ¬ headerBad v) → m.validate block = some { code := 3, index := w }) ∧
      ((∀ w, ¬ headerBad w) →
        (∀ i, windowBad i → (∀ j, j < i → ¬ windowBad j) → m.validate block = some { code := 4, index := i }) ∧
        ((∀ i, ¬ windowBad i) →
          (∀ i, matcherBad i → (∀ j, j < i → ¬ matcherBad j) →
            m.validate block = some { code := 5, index := i }) ∧
          ((∀ i, ¬ matcherBad i) →
            (∀ n, lineBad n → (∀ k, k < n → ¬ lineBad k) → m.validate block = some { code := 6, index := n }) ∧
            ((∀ n, ¬ lineBad n) →
              (∀ e, channelBad e → (∀ k, k < e → ¬ channelBad k) →
                m.validate block = some { code := 7, index := e }) ∧
              ((∀ e, ¬ channelBad e) →
                (tallyBad → m.validate block = some { code := 8, index := 0 }) ∧
                (¬ tallyBad → m.validate block = none)))))))) ∧
  (∀ (m : Image) (block : Nat), m.validate block = none →
    let apart (b l b' l' : Nat) : Prop := ∀ x, ¬(b ≤ x ∧ x < b + l ∧ b' ≤ x ∧ x < b' + l')
    m.get 0 = 0x57A4C0DE#32 ∧
    (∀ e e' : Fin 256, m.channelEnabled e = true → m.channelEnabled e' = true →
      (m.channel e).channel = (m.channel e').channel → e = e') ∧
    (∀ e : Fin 256, m.channelEnabled e = true → m.entryOf (m.channel e).channel = some e) ∧
    (∀ e : Fin 256, m.channelEnabled e = true → m.kind (m.channel e).line ≠ .none) ∧
    (∀ i : Fin 4, (m.window i).enabled = true →
      apart (m.window i).base (4 * (m.window i).size) block 8448 ∧
      apart (m.window i).base (4 * (m.window i).size) m.tallyBase 33280 ∧
      (∀ j : Fin 4, j ≠ i → (m.window j).enabled = true →
        apart (m.window i).base (4 * (m.window i).size) (m.window j).base (4 * (m.window j).size)) ∧
      ∀ n : Fin 16, m.kind n ≠ .none →
        apart (m.window i).base (4 * (m.window i).size) (m.ringBase n) (64 * (m.ringSize n + 1))) ∧
    (∀ n : Fin 16, m.kind n ≠ .none →
      m.ringBase n % 64 = 0 ∧ m.ringBase n + 64 * (m.ringSize n + 1) ≤ 2 ^ 32 ∧
      apart (m.ringBase n) (64 * (m.ringSize n + 1)) block 8448 ∧
      apart (m.ringBase n) (64 * (m.ringSize n + 1)) m.tallyBase 33280 ∧
      (∀ k : Fin 16, k ≠ n → m.kind k ≠ .none →
        apart (m.ringBase n) (64 * (m.ringSize n + 1)) (m.ringBase k) (64 * (m.ringSize k + 1))) ∧
      (∀ p, m.parent n = some p → m.kind p = .furnace) ∧
      (m.kind n = .furnace → (m.children n).length ≤ 7)) ∧
    m.tallyBase % 32 = 0 ∧ m.tallyBase + 33280 ≤ 2 ^ 32 ∧ apart m.tallyBase 33280 block 8448)

/-! ### Alerts and the status block -/

/-- A reported defect event is counted by every counter whose select names its class, saturating at 65535 with
COUNTER_FULL, and latches its bit; a bit that becomes set makes the latched group owed. ALERT is asserted while a
latched bit stands whose mask bit is clear. An edge bit is latched at a rise, and at a fall under select both; the
real-time group becomes owed at each, and nothing else changes. The first clauses give the numbers of the 22
latched bits (R165), the codes of the nine defect classes (section 10.4), the bit that each class latches, which
is none for FAULT_TAGGED, SPILLED and TALLY_LOSS (R37, R74, R139), the edge bits and the edge selects (R168,
section 10.4), what a latch changes, and when ANY_STALE holds. -/
def Obligations.ReportsLatchCountAndDriveAlert : Prop :=
  ([AlertBit.checkFail, .stray, .admitDrop, .sequence, .suspect, .reprimed, .staleEnter, .misfire, .ringOverrun,
    .consumerInvalid, .tallyMiss, .saturation, .setupApplied, .setupRejected, .memoryFault, .guard, .counterFull,
    .clockStep, .holdEdge, .spillEdge, .staleEdge, .commandDone].map AlertBit.number = List.range 22 ∧
   [DefectClass.checkFail, .stray, .admitDrop, .duplicateLate, .sequenceGap, .implausible, .faultTagged, .spilled,
    .tallyLoss].map DefectClass.code = [1, 2, 3, 4, 5, 6, 7, 8, 9] ∧
   [DefectClass.checkFail, .stray, .admitDrop, .duplicateLate, .sequenceGap, .implausible, .faultTagged, .spilled,
    .tallyLoss].map DefectClass.bit = [some .checkFail, some .stray, some .admitDrop, some .sequence,
      some .sequence, some .suspect, none, none, none] ∧
   [Condition.holding, .spilling, .anyStale].map Condition.bit = [.holdEdge, .spillEdge, .staleEdge] ∧
   (∀ m : Image,
     (m.selectsBoth .holding = true ↔ (m.get 17).toNat % 4 = 2) ∧
     (m.selectsBoth .spilling = true ↔ (m.get 17).toNat / 4 % 4 = 2) ∧
     (m.selectsBoth .anyStale = true ↔ (m.get 17).toNat / 16 % 4 = 2)) ∧
   (∀ (x : AlertBit) (a : Alerts), a.has x = a.latched.getLsbD x.number ∧ x.mask = BitVec.twoPow 22 x.number ∧
     a.latch x = { a with
       latched := a.latched ||| BitVec.twoPow 22 x.number,
       owed := { a.owed with latched := a.owed.latched || !a.has x } }) ∧
   ∀ c : Channels, c.anyStale = true ↔ ∃ e : Fin 256, (c.meters[e]).state = .stale) ∧
  (∀ (m : Image) (c : DefectClass) (a : Alerts),
    let b := a.report m c
    let names : Fin 4 → Prop := fun i => m.firstClass i = c.code ∨ m.secondClass i = c.code
    (∀ i : Fin 4, (names i → b.counters[i] = { a.counters[i] with
        count := min ((a.counters[i]).count + 1) 65535 }) ∧
      (¬ names i → b.counters[i] = a.counters[i])) ∧
    (∀ x, b.has x = true ↔ a.has x = true ∨ c.bit = some x ∨
      (x = .counterFull ∧ ∃ i, names i ∧ 65535 ≤ (a.counters[i]).count + 1)) ∧
    b.owed = { a.owed with latched := a.owed.latched || decide (b.latched ≠ a.latched) } ∧
    { b with latched := a.latched, counters := a.counters, owed := a.owed } = a) ∧
  (∀ s : State, s.alertOutput = true ↔ s.inReset = false ∧
    ∃ k, k < 22 ∧ s.alerts.latched.getLsbD k = true ∧ (s.cfg.get 16).getLsbD k = false) ∧
  (∀ (m : Image) (c : Condition) (a : Alerts),
    let owing : Alerts := { a with owed := { a.owed with realTime := true } }
    a.rise c = owing.latch c.bit ∧
    (m.selectsBoth c = true → a.fall m c = owing.latch c.bit) ∧
    (m.selectsBoth c = false → a.fall m c = owing) ∧
    (a.rise c).has c.bit = true ∧ (a.rise c).owed.realTime = true ∧ (a.fall m c).owed.realTime = true ∧
    (∀ x, x ≠ c.bit → (a.rise c).has x = a.has x ∧ (a.fall m c).has x = a.has x) ∧
    ∀ before after : Bool, a.follow m c before after =
      if before = after then a else if after then a.rise c else a.fall m c)

/-- The answer to a mirror write frees the port and the mirror, an ERROR latching MEMORY_FAULT without a retry;
outside FETCHING the first owed group is then requested. The words of each of the seven groups are laid out. -/
def Obligations.MirrorAnswersRequestTheNextOwedGroup : Prop :=
  (∀ (s : State) (g : Group) (txn : Txn), s.steady = true → s.pass.port = .internal (.mirror g) txn →
    (∃ m, exec (.mirrorWriteResponse .ok) s = .next { s with
      pass := { s.pass with port := .free }, alerts := { s.alerts with mirror := m } } ∧
      (s.setup.part ≠ .fetching →
        m = [Group.latched, .realTime, .applyResult, .commandResult, .counters, .lostTally, .report].find?
          s.alerts.owed.has) ∧
      (s.setup.part = .fetching → m = none)) ∧
    (∃ m, exec (.mirrorWriteResponse .error) s = .next { s with
      pass := { s.pass with port := .free },
      alerts := { s.alerts.latch .memoryFault with mirror := m } } ∧
      (s.setup.part ≠ .fetching → s.alerts.has .memoryFault = false → m = some .latched) ∧
      (s.setup.part ≠ .fetching → s.alerts.has .memoryFault = true →
        m = [Group.latched, .realTime, .applyResult, .commandResult, .counters, .lostTally, .report].find?
          s.alerts.owed.has))) ∧
  (∀ s : State,
    (∃ w, s.groupWords .latched = [w] ∧ ∀ k, k < 32 → w.getLsbD k = s.alerts.latched.getLsbD k) ∧
    ∃ w, s.groupWords .realTime = [w] ∧
      w.getLsbD 0 = s.pass.heldWrite.isSome ∧ w.getLsbD 1 = s.pass.spilling ∧
      (w.getLsbD 2 = true ↔ ∃ e : Fin 256, (s.channels.meters[e]).state = .stale) ∧
      (w.getLsbD 3 = true ↔ ∃ p, s.setup.part = .applying p) ∧
      (∀ k, 4 ≤ k → k < 8 → w.getLsbD k = false) ∧
      w.toNat / 256 = match s.setup.part with
        | .fetching => 0
        | .unset => 1
        | .active => 2
        | .applying _ => 3) ∧
  (∀ s : State,
    let w (n : Nat) : Word := BitVec.ofNat 32 n
    let overrun (k : Nat) : Nat := if h : k < 16 then
      (if s.cfg.kind ⟨k, h⟩ = .none then 0 else (s.writer.rings[k]).overrun) else 0
    s.groupWords .applyResult = [s.alerts.applyResult.generation,
      w (s.alerts.applyResult.index * 256 + s.alerts.applyResult.code)] ∧
    s.groupWords .commandResult = [s.alerts.commandResult.word,
      match s.alerts.commandResult.result with
      | .none => 0
      | .done => 1
      | .refusedUnset => 2
      | .badArgument => 3] ∧
    s.groupWords .counters = [w (s.alerts.counters[0]).latch, w (s.alerts.counters[1]).latch,
      w (s.alerts.counters[2]).latch, w (s.alerts.counters[3]).latch] ∧
    s.groupWords .lostTally = [w s.tally.lost.energy, w (s.tally.lost.energy / 2 ^ 32), w s.tally.lost.pulled,
      w s.tally.lost.packed, w s.tally.lost.count,
      match s.tally.lost.reason with
      | .none => 0
      | .queueFull => 1
      | .listFull => 2] ∧
    s.groupWords .report = [s.intake.accepted, s.lines.clock, w (overrun 0 + 65536 * overrun 1),
      w (overrun 2 + 65536 * overrun 3), w (overrun 4 + 65536 * overrun 5),
      w (overrun 6 + 65536 * overrun 7), w (overrun 8 + 65536 * overrun 9),
      w (overrun 10 + 65536 * overrun 11), w (overrun 12 + 65536 * overrun 13),
      w (overrun 14 + 65536 * overrun 15)])

/-! ### What every step keeps -/

/-- No step leaves the engine with a reservation in IDLE, READ_WAIT or BACKOFF (R131). -/
def Obligations.ReservationStaysInServiceAtEveryStep : Prop := KeptByEveryStep ReservationOnlyInService

/-- Every step keeps the depths of the queues and lists and the widths of the counts, and no ring leaves more
records unread than it holds, counted to its reserved producer (that R115 speaks of the reserved producer is
deduced, log entry 19). -/
def Obligations.QueueAndCountBoundsAreKeptByEveryStep : Prop :=
  KeptByEveryStep QueueBounds ∧ KeptByEveryStep CountBounds ∧ KeptByEveryStep RingSpace

/-- The group requested is the first owed one in the order of R171, and a mirror write in hand is kept. After every
step an owed group has been requested, unless the part is FETCHING or a mirror write is in hand. A step that
changes the state keeps the mirror write that was in hand, but for RESET and the answer to that write, and where
none is in hand, or the step is that answer, it leaves the first owed group requested, and none while the part is
FETCHING (R171, R173). State.requestMirror is what ends each step: it writes the mirror write in hand alone. -/
def Obligations.OwedGroupsAreRequestedByEveryStep : Prop :=
  KeptByEveryStep OwedGroupsRequested ∧
  (∀ s : State, s.requestMirror = { s with alerts := { s.alerts with mirror :=
    if s.setup.part = .fetching then s.alerts.mirror
    else match s.alerts.mirror with
      | some g => some g
      | none => [Group.latched, .realTime, .applyResult, .commandResult, .counters, .lostTally, .report].find?
          s.alerts.owed.has } }) ∧
  ∀ (c : Instr) (s t : State), c ≠ .resetAssert → (∀ straps, c ≠ .resetRelease straps) →
    exec c s = .next t → t ≠ s →
    (∀ g, s.alerts.mirror = some g → (∀ answer, c ≠ .mirrorWriteResponse answer) → t.alerts.mirror = some g) ∧
    (s.alerts.mirror = none ∨ (∃ answer, c = .mirrorWriteResponse answer) → t.alerts.mirror =
      if t.setup.part = .fetching then none
      else [Group.latched, .realTime, .applyResult, .commandResult, .counters, .lostTally, .report].find?
        t.alerts.owed.has)

/-- Every step keeps the shadow, the candidate and the active setup in canonical form, which is the model's own
representation of them (log entry 26), the active setup validated at the part's placement, and the candidate of an
apply past validation validated too. -/
def Obligations.SetupInForceStaysValidated : Prop :=
  KeptByEveryStep ImagesCanonical ∧ KeptByEveryStep SetupValidated

/-- Every step keeps the hand-over list naming each waiting snapshot once and nothing else. -/
def Obligations.HandOverListNamesEachWaitingSnapshotOnce : Prop := KeptByEveryStep HandOverExact

/-- The state after reset meets every invariant that the steps keep. -/
def Obligations.InvariantsHoldAtReset : Prop :=
  ReservationOnlyInService State.reset ∧ QueueBounds State.reset ∧ CountBounds State.reset ∧ RingSpace State.reset ∧
  OwedGroupsRequested State.reset ∧ ImagesCanonical State.reset ∧ SetupValidated State.reset ∧
  HandOverExact State.reset
end

