-- ==== Sys2Proof/Laws/State.lean ====
section
/-! SUPPORT. What each shared update of the state leaves alone, one lemma per field, and what it writes. -/

namespace Sys2Proof.Machine

/-! ### Fields that an update does not write -/

@[simp] theorem State.latch_pending (b : AlertBit) (s : State) : (s.latch b).pending = s.pending := rfl
@[simp] theorem State.latch_inReset (b : AlertBit) (s : State) : (s.latch b).inReset = s.inReset := rfl
@[simp] theorem State.latch_pass (b : AlertBit) (s : State) : (s.latch b).pass = s.pass := rfl
@[simp] theorem State.latch_intake (b : AlertBit) (s : State) : (s.latch b).intake = s.intake := rfl
@[simp] theorem State.latch_channels (b : AlertBit) (s : State) : (s.latch b).channels = s.channels := rfl
@[simp] theorem State.latch_lines (b : AlertBit) (s : State) : (s.latch b).lines = s.lines := rfl
@[simp] theorem State.latch_writer (b : AlertBit) (s : State) : (s.latch b).writer = s.writer := rfl
@[simp] theorem State.latch_tally (b : AlertBit) (s : State) : (s.latch b).tally = s.tally := rfl
@[simp] theorem State.latch_setup (b : AlertBit) (s : State) : (s.latch b).setup = s.setup := rfl

@[simp] theorem State.requestMirror_pending (s : State) : (s.requestMirror).pending = s.pending := rfl
@[simp] theorem State.requestMirror_inReset (s : State) : (s.requestMirror).inReset = s.inReset := rfl
@[simp] theorem State.requestMirror_pass (s : State) : (s.requestMirror).pass = s.pass := rfl
@[simp] theorem State.requestMirror_intake (s : State) : (s.requestMirror).intake = s.intake := rfl
@[simp] theorem State.requestMirror_channels (s : State) : (s.requestMirror).channels = s.channels := rfl
@[simp] theorem State.requestMirror_lines (s : State) : (s.requestMirror).lines = s.lines := rfl
@[simp] theorem State.requestMirror_writer (s : State) : (s.requestMirror).writer = s.writer := rfl
@[simp] theorem State.requestMirror_tally (s : State) : (s.requestMirror).tally = s.tally := rfl
@[simp] theorem State.requestMirror_setup (s : State) : (s.requestMirror).setup = s.setup := rfl

@[simp] theorem State.withLedger_pending (x : Ledger) (s : State) :
    (s.withLedger x).pending = s.pending := rfl
@[simp] theorem State.withLedger_inReset (x : Ledger) (s : State) :
    (s.withLedger x).inReset = s.inReset := rfl
@[simp] theorem State.withLedger_pass (x : Ledger) (s : State) : (s.withLedger x).pass = s.pass := rfl
@[simp] theorem State.withLedger_intake (x : Ledger) (s : State) : (s.withLedger x).intake = s.intake := rfl
@[simp] theorem State.withLedger_channels (x : Ledger) (s : State) :
    (s.withLedger x).channels = s.channels := rfl
@[simp] theorem State.withLedger_lines (x : Ledger) (s : State) : (s.withLedger x).lines = s.lines := rfl
@[simp] theorem State.withLedger_writer (x : Ledger) (s : State) : (s.withLedger x).writer = s.writer := rfl
@[simp] theorem State.withLedger_setup (x : Ledger) (s : State) : (s.withLedger x).setup = s.setup := rfl

@[simp] theorem State.withBooks_pending (x : Books) (s : State) : (s.withBooks x).pending = s.pending := rfl
@[simp] theorem State.withBooks_inReset (x : Books) (s : State) : (s.withBooks x).inReset = s.inReset := rfl
@[simp] theorem State.withBooks_pass (x : Books) (s : State) : (s.withBooks x).pass = s.pass := rfl
@[simp] theorem State.withBooks_intake (x : Books) (s : State) : (s.withBooks x).intake = s.intake := rfl
@[simp] theorem State.withBooks_writer (x : Books) (s : State) : (s.withBooks x).writer = s.writer := rfl
@[simp] theorem State.withBooks_setup (x : Books) (s : State) : (s.withBooks x).setup = s.setup := rfl

@[simp] theorem State.withDesk_pending (x : Desk) (s : State) : (s.withDesk x).pending = s.pending := rfl
@[simp] theorem State.withDesk_inReset (x : Desk) (s : State) : (s.withDesk x).inReset = s.inReset := rfl
@[simp] theorem State.withDesk_pass (x : Desk) (s : State) : (s.withDesk x).pass = s.pass := rfl
@[simp] theorem State.withDesk_channels (x : Desk) (s : State) : (s.withDesk x).channels = s.channels := rfl
@[simp] theorem State.withDesk_lines (x : Desk) (s : State) : (s.withDesk x).lines = s.lines := rfl
@[simp] theorem State.withDesk_writer (x : Desk) (s : State) : (s.withDesk x).writer = s.writer := rfl
@[simp] theorem State.withDesk_tally (x : Desk) (s : State) : (s.withDesk x).tally = s.tally := rfl
@[simp] theorem State.withDesk_setup (x : Desk) (s : State) : (s.withDesk x).setup = s.setup := rfl

@[simp] theorem State.withMeters_pending (ms : Vector Meter 256) (s : State) :
    (s.withMeters ms).pending = s.pending := rfl
@[simp] theorem State.withMeters_inReset (ms : Vector Meter 256) (s : State) :
    (s.withMeters ms).inReset = s.inReset := rfl
@[simp] theorem State.withMeters_pass (ms : Vector Meter 256) (s : State) :
    (s.withMeters ms).pass = s.pass := rfl
@[simp] theorem State.withMeters_intake (ms : Vector Meter 256) (s : State) :
    (s.withMeters ms).intake = s.intake := rfl
@[simp] theorem State.withMeters_lines (ms : Vector Meter 256) (s : State) :
    (s.withMeters ms).lines = s.lines := rfl
@[simp] theorem State.withMeters_writer (ms : Vector Meter 256) (s : State) :
    (s.withMeters ms).writer = s.writer := rfl
@[simp] theorem State.withMeters_tally (ms : Vector Meter 256) (s : State) :
    (s.withMeters ms).tally = s.tally := rfl
@[simp] theorem State.withMeters_setup (ms : Vector Meter 256) (s : State) :
    (s.withMeters ms).setup = s.setup := rfl

@[simp] theorem State.setNotice_pending (n : Notice) (s : State) : (s.setNotice n).pending = s.pending := rfl
@[simp] theorem State.setNotice_inReset (n : Notice) (s : State) : (s.setNotice n).inReset = s.inReset := rfl
@[simp] theorem State.setNotice_intake (n : Notice) (s : State) : (s.setNotice n).intake = s.intake := rfl
@[simp] theorem State.setNotice_channels (n : Notice) (s : State) :
    (s.setNotice n).channels = s.channels := rfl
@[simp] theorem State.setNotice_lines (n : Notice) (s : State) : (s.setNotice n).lines = s.lines := rfl
@[simp] theorem State.setNotice_writer (n : Notice) (s : State) : (s.setNotice n).writer = s.writer := rfl
@[simp] theorem State.setNotice_tally (n : Notice) (s : State) : (s.setNotice n).tally = s.tally := rfl
@[simp] theorem State.setNotice_setup (n : Notice) (s : State) : (s.setNotice n).setup = s.setup := rfl
@[simp] theorem State.setNotice_alerts (n : Notice) (s : State) : (s.setNotice n).alerts = s.alerts := rfl

@[simp] theorem State.setPart_pending (p : Part) (s : State) : (s.setPart p).pending = s.pending := rfl
@[simp] theorem State.setPart_inReset (p : Part) (s : State) : (s.setPart p).inReset = s.inReset := rfl
@[simp] theorem State.setPart_pass (p : Part) (s : State) : (s.setPart p).pass = s.pass := rfl
@[simp] theorem State.setPart_intake (p : Part) (s : State) : (s.setPart p).intake = s.intake := rfl
@[simp] theorem State.setPart_channels (p : Part) (s : State) : (s.setPart p).channels = s.channels := rfl
@[simp] theorem State.setPart_lines (p : Part) (s : State) : (s.setPart p).lines = s.lines := rfl
@[simp] theorem State.setPart_writer (p : Part) (s : State) : (s.setPart p).writer = s.writer := rfl
@[simp] theorem State.setPart_tally (p : Part) (s : State) : (s.setPart p).tally = s.tally := rfl

@[simp] theorem State.freePort_pending (s : State) : (s.freePort).pending = s.pending := rfl
@[simp] theorem State.freePort_inReset (s : State) : (s.freePort).inReset = s.inReset := rfl
@[simp] theorem State.freePort_intake (s : State) : (s.freePort).intake = s.intake := rfl
@[simp] theorem State.freePort_channels (s : State) : (s.freePort).channels = s.channels := rfl
@[simp] theorem State.freePort_lines (s : State) : (s.freePort).lines = s.lines := rfl
@[simp] theorem State.freePort_writer (s : State) : (s.freePort).writer = s.writer := rfl
@[simp] theorem State.freePort_tally (s : State) : (s.freePort).tally = s.tally := rfl
@[simp] theorem State.freePort_setup (s : State) : (s.freePort).setup = s.setup := rfl
@[simp] theorem State.freePort_alerts (s : State) : (s.freePort).alerts = s.alerts := rfl

@[simp] theorem State.writerStep_pending (w : WriteStep) (s : State) :
    (s.writerStep w).pending = s.pending := rfl
@[simp] theorem State.writerStep_inReset (w : WriteStep) (s : State) :
    (s.writerStep w).inReset = s.inReset := rfl
@[simp] theorem State.writerStep_pass (w : WriteStep) (s : State) : (s.writerStep w).pass = s.pass := rfl
@[simp] theorem State.writerStep_intake (w : WriteStep) (s : State) :
    (s.writerStep w).intake = s.intake := rfl
@[simp] theorem State.writerStep_channels (w : WriteStep) (s : State) :
    (s.writerStep w).channels = s.channels := rfl
@[simp] theorem State.writerStep_lines (w : WriteStep) (s : State) : (s.writerStep w).lines = s.lines := rfl
@[simp] theorem State.writerStep_tally (w : WriteStep) (s : State) : (s.writerStep w).tally = s.tally := rfl
@[simp] theorem State.writerStep_setup (w : WriteStep) (s : State) : (s.writerStep w).setup = s.setup := rfl
@[simp] theorem State.writerStep_alerts (w : WriteStep) (s : State) :
    (s.writerStep w).alerts = s.alerts := rfl

@[simp] theorem State.setRunCount_pending (n : Nat) (s : State) : (s.setRunCount n).pending = s.pending := rfl
@[simp] theorem State.setRunCount_inReset (n : Nat) (s : State) : (s.setRunCount n).inReset = s.inReset := rfl
@[simp] theorem State.setRunCount_intake (n : Nat) (s : State) : (s.setRunCount n).intake = s.intake := rfl
@[simp] theorem State.setRunCount_channels (n : Nat) (s : State) :
    (s.setRunCount n).channels = s.channels := rfl
@[simp] theorem State.setRunCount_lines (n : Nat) (s : State) : (s.setRunCount n).lines = s.lines := rfl
@[simp] theorem State.setRunCount_writer (n : Nat) (s : State) : (s.setRunCount n).writer = s.writer := rfl
@[simp] theorem State.setRunCount_tally (n : Nat) (s : State) : (s.setRunCount n).tally = s.tally := rfl
@[simp] theorem State.setRunCount_setup (n : Nat) (s : State) : (s.setRunCount n).setup = s.setup := rfl
@[simp] theorem State.setRunCount_alerts (n : Nat) (s : State) : (s.setRunCount n).alerts = s.alerts := rfl

@[simp] theorem State.leaveHold_pending (s : State) : (s.leaveHold).pending = s.pending := rfl
@[simp] theorem State.leaveHold_inReset (s : State) : (s.leaveHold).inReset = s.inReset := rfl
@[simp] theorem State.leaveHold_intake (s : State) : (s.leaveHold).intake = s.intake := rfl
@[simp] theorem State.leaveHold_channels (s : State) : (s.leaveHold).channels = s.channels := rfl
@[simp] theorem State.leaveHold_lines (s : State) : (s.leaveHold).lines = s.lines := rfl
@[simp] theorem State.leaveHold_writer (s : State) : (s.leaveHold).writer = s.writer := rfl
@[simp] theorem State.leaveHold_tally (s : State) : (s.leaveHold).tally = s.tally := rfl
@[simp] theorem State.leaveHold_setup (s : State) : (s.leaveHold).setup = s.setup := rfl

@[simp] theorem State.acceptRead_pending (a : Nat) (es : List (BitVec 4)) (s : State) :
    (s.acceptRead a es).pending = s.pending := rfl
@[simp] theorem State.acceptRead_inReset (a : Nat) (es : List (BitVec 4)) (s : State) :
    (s.acceptRead a es).inReset = s.inReset := rfl
@[simp] theorem State.acceptRead_intake (a : Nat) (es : List (BitVec 4)) (s : State) :
    (s.acceptRead a es).intake = s.intake := rfl
@[simp] theorem State.acceptRead_channels (a : Nat) (es : List (BitVec 4)) (s : State) :
    (s.acceptRead a es).channels = s.channels := rfl
@[simp] theorem State.acceptRead_lines (a : Nat) (es : List (BitVec 4)) (s : State) :
    (s.acceptRead a es).lines = s.lines := rfl
@[simp] theorem State.acceptRead_writer (a : Nat) (es : List (BitVec 4)) (s : State) :
    (s.acceptRead a es).writer = s.writer := rfl
@[simp] theorem State.acceptRead_tally (a : Nat) (es : List (BitVec 4)) (s : State) :
    (s.acceptRead a es).tally = s.tally := rfl
@[simp] theorem State.acceptRead_setup (a : Nat) (es : List (BitVec 4)) (s : State) :
    (s.acceptRead a es).setup = s.setup := rfl
@[simp] theorem State.acceptRead_alerts (a : Nat) (es : List (BitVec 4)) (s : State) :
    (s.acceptRead a es).alerts = s.alerts := rfl

@[simp] theorem State.answerMalformed_pending (s : State) : (s.answerMalformed).pending = s.pending := rfl
@[simp] theorem State.answerMalformed_inReset (s : State) : (s.answerMalformed).inReset = s.inReset := rfl
@[simp] theorem State.answerMalformed_intake (s : State) : (s.answerMalformed).intake = s.intake := rfl
@[simp] theorem State.answerMalformed_channels (s : State) : (s.answerMalformed).channels = s.channels := rfl
@[simp] theorem State.answerMalformed_lines (s : State) : (s.answerMalformed).lines = s.lines := rfl
@[simp] theorem State.answerMalformed_writer (s : State) : (s.answerMalformed).writer = s.writer := rfl
@[simp] theorem State.answerMalformed_tally (s : State) : (s.answerMalformed).tally = s.tally := rfl
@[simp] theorem State.answerMalformed_setup (s : State) : (s.answerMalformed).setup = s.setup := rfl
@[simp] theorem State.answerMalformed_alerts (s : State) : (s.answerMalformed).alerts = s.alerts := rfl

@[simp] theorem State.enterHold_pending (a : Nat) (ws : List WriteWord) (s : State) :
    (s.enterHold a ws).pending = s.pending := rfl
@[simp] theorem State.enterHold_inReset (a : Nat) (ws : List WriteWord) (s : State) :
    (s.enterHold a ws).inReset = s.inReset := rfl
@[simp] theorem State.enterHold_intake (a : Nat) (ws : List WriteWord) (s : State) :
    (s.enterHold a ws).intake = s.intake := rfl
@[simp] theorem State.enterHold_channels (a : Nat) (ws : List WriteWord) (s : State) :
    (s.enterHold a ws).channels = s.channels := rfl
@[simp] theorem State.enterHold_lines (a : Nat) (ws : List WriteWord) (s : State) :
    (s.enterHold a ws).lines = s.lines := rfl
@[simp] theorem State.enterHold_writer (a : Nat) (ws : List WriteWord) (s : State) :
    (s.enterHold a ws).writer = s.writer := rfl
@[simp] theorem State.enterHold_tally (a : Nat) (ws : List WriteWord) (s : State) :
    (s.enterHold a ws).tally = s.tally := rfl
@[simp] theorem State.enterHold_setup (a : Nat) (ws : List WriteWord) (s : State) :
    (s.enterHold a ws).setup = s.setup := rfl

@[simp] theorem State.tick_pending (s : State) : (s.tick).pending = s.pending := rfl
@[simp] theorem State.tick_inReset (s : State) : (s.tick).inReset = s.inReset := rfl
@[simp] theorem State.tick_pass (s : State) : (s.tick).pass = s.pass := rfl
@[simp] theorem State.tick_channels (s : State) : (s.tick).channels = s.channels := rfl
@[simp] theorem State.tick_writer (s : State) : (s.tick).writer = s.writer := rfl
@[simp] theorem State.tick_tally (s : State) : (s.tick).tally = s.tally := rfl
@[simp] theorem State.tick_setup (s : State) : (s.tick).setup = s.setup := rfl
@[simp] theorem State.tick_alerts (s : State) : (s.tick).alerts = s.alerts := rfl

@[simp] theorem State.grantMirror_pending (g : Group) (s : State) :
    (s.grantMirror g).pending = s.pending := rfl
@[simp] theorem State.grantMirror_inReset (g : Group) (s : State) :
    (s.grantMirror g).inReset = s.inReset := rfl
@[simp] theorem State.grantMirror_intake (g : Group) (s : State) : (s.grantMirror g).intake = s.intake := rfl
@[simp] theorem State.grantMirror_channels (g : Group) (s : State) :
    (s.grantMirror g).channels = s.channels := rfl
@[simp] theorem State.grantMirror_lines (g : Group) (s : State) : (s.grantMirror g).lines = s.lines := rfl
@[simp] theorem State.grantMirror_writer (g : Group) (s : State) : (s.grantMirror g).writer = s.writer := rfl
@[simp] theorem State.grantMirror_tally (g : Group) (s : State) : (s.grantMirror g).tally = s.tally := rfl
@[simp] theorem State.grantMirror_setup (g : Group) (s : State) : (s.grantMirror g).setup = s.setup := rfl

@[simp] theorem State.grantFetch_pending (s : State) : (s.grantFetch).pending = s.pending := rfl
@[simp] theorem State.grantFetch_inReset (s : State) : (s.grantFetch).inReset = s.inReset := rfl
@[simp] theorem State.grantFetch_intake (s : State) : (s.grantFetch).intake = s.intake := rfl
@[simp] theorem State.grantFetch_channels (s : State) : (s.grantFetch).channels = s.channels := rfl
@[simp] theorem State.grantFetch_lines (s : State) : (s.grantFetch).lines = s.lines := rfl
@[simp] theorem State.grantFetch_writer (s : State) : (s.grantFetch).writer = s.writer := rfl
@[simp] theorem State.grantFetch_tally (s : State) : (s.grantFetch).tally = s.tally := rfl
@[simp] theorem State.grantFetch_setup (s : State) : (s.grantFetch).setup = s.setup := rfl
@[simp] theorem State.grantFetch_alerts (s : State) : (s.grantFetch).alerts = s.alerts := rfl

@[simp] theorem State.grantReserveRead_pending (u : Update) (s : State) :
    (s.grantReserveRead u).pending = s.pending := rfl
@[simp] theorem State.grantReserveRead_inReset (u : Update) (s : State) :
    (s.grantReserveRead u).inReset = s.inReset := rfl
@[simp] theorem State.grantReserveRead_intake (u : Update) (s : State) :
    (s.grantReserveRead u).intake = s.intake := rfl
@[simp] theorem State.grantReserveRead_channels (u : Update) (s : State) :
    (s.grantReserveRead u).channels = s.channels := rfl
@[simp] theorem State.grantReserveRead_lines (u : Update) (s : State) :
    (s.grantReserveRead u).lines = s.lines := rfl
@[simp] theorem State.grantReserveRead_writer (u : Update) (s : State) :
    (s.grantReserveRead u).writer = s.writer := rfl
@[simp] theorem State.grantReserveRead_setup (u : Update) (s : State) :
    (s.grantReserveRead u).setup = s.setup := rfl
@[simp] theorem State.grantReserveRead_alerts (u : Update) (s : State) :
    (s.grantReserveRead u).alerts = s.alerts := rfl

@[simp] theorem State.grantConditionalWrite_pending (u : Update) (s : State) :
    (s.grantConditionalWrite u).pending = s.pending := rfl
@[simp] theorem State.grantConditionalWrite_inReset (u : Update) (s : State) :
    (s.grantConditionalWrite u).inReset = s.inReset := rfl
@[simp] theorem State.grantConditionalWrite_intake (u : Update) (s : State) :
    (s.grantConditionalWrite u).intake = s.intake := rfl
@[simp] theorem State.grantConditionalWrite_channels (u : Update) (s : State) :
    (s.grantConditionalWrite u).channels = s.channels := rfl
@[simp] theorem State.grantConditionalWrite_lines (u : Update) (s : State) :
    (s.grantConditionalWrite u).lines = s.lines := rfl
@[simp] theorem State.grantConditionalWrite_writer (u : Update) (s : State) :
    (s.grantConditionalWrite u).writer = s.writer := rfl
@[simp] theorem State.grantConditionalWrite_setup (u : Update) (s : State) :
    (s.grantConditionalWrite u).setup = s.setup := rfl
@[simp] theorem State.grantConditionalWrite_alerts (u : Update) (s : State) :
    (s.grantConditionalWrite u).alerts = s.alerts := rfl

@[simp] theorem State.grantWriter_pending (c : Client) (t : Txn) (s : State) :
    (s.grantWriter c t).pending = s.pending := rfl
@[simp] theorem State.grantWriter_inReset (c : Client) (t : Txn) (s : State) :
    (s.grantWriter c t).inReset = s.inReset := rfl
@[simp] theorem State.grantWriter_intake (c : Client) (t : Txn) (s : State) :
    (s.grantWriter c t).intake = s.intake := rfl
@[simp] theorem State.grantWriter_channels (c : Client) (t : Txn) (s : State) :
    (s.grantWriter c t).channels = s.channels := rfl
@[simp] theorem State.grantWriter_lines (c : Client) (t : Txn) (s : State) :
    (s.grantWriter c t).lines = s.lines := rfl
@[simp] theorem State.grantWriter_tally (c : Client) (t : Txn) (s : State) :
    (s.grantWriter c t).tally = s.tally := rfl
@[simp] theorem State.grantWriter_setup (c : Client) (t : Txn) (s : State) :
    (s.grantWriter c t).setup = s.setup := rfl
@[simp] theorem State.grantWriter_alerts (c : Client) (t : Txn) (s : State) :
    (s.grantWriter c t).alerts = s.alerts := rfl

@[simp] theorem State.answerPassthrough_pending (r : PassAnswer) (s : State) :
    (s.answerPassthrough r).pending = s.pending := rfl
@[simp] theorem State.answerPassthrough_inReset (r : PassAnswer) (s : State) :
    (s.answerPassthrough r).inReset = s.inReset := rfl
@[simp] theorem State.answerPassthrough_intake (r : PassAnswer) (s : State) :
    (s.answerPassthrough r).intake = s.intake := rfl
@[simp] theorem State.answerPassthrough_channels (r : PassAnswer) (s : State) :
    (s.answerPassthrough r).channels = s.channels := rfl
@[simp] theorem State.answerPassthrough_lines (r : PassAnswer) (s : State) :
    (s.answerPassthrough r).lines = s.lines := rfl
@[simp] theorem State.answerPassthrough_writer (r : PassAnswer) (s : State) :
    (s.answerPassthrough r).writer = s.writer := rfl
@[simp] theorem State.answerPassthrough_tally (r : PassAnswer) (s : State) :
    (s.answerPassthrough r).tally = s.tally := rfl
@[simp] theorem State.answerPassthrough_setup (r : PassAnswer) (s : State) :
    (s.answerPassthrough r).setup = s.setup := rfl
@[simp] theorem State.answerPassthrough_alerts (r : PassAnswer) (s : State) :
    (s.answerPassthrough r).alerts = s.alerts := rfl

@[simp] theorem State.expireReport_pending (s : State) : (s.expireReport).pending = s.pending := rfl
@[simp] theorem State.expireReport_inReset (s : State) : (s.expireReport).inReset = s.inReset := rfl
@[simp] theorem State.expireReport_pass (s : State) : (s.expireReport).pass = s.pass := rfl
@[simp] theorem State.expireReport_intake (s : State) : (s.expireReport).intake = s.intake := rfl
@[simp] theorem State.expireReport_channels (s : State) : (s.expireReport).channels = s.channels := rfl
@[simp] theorem State.expireReport_lines (s : State) : (s.expireReport).lines = s.lines := rfl
@[simp] theorem State.expireReport_writer (s : State) : (s.expireReport).writer = s.writer := rfl
@[simp] theorem State.expireReport_tally (s : State) : (s.expireReport).tally = s.tally := rfl
@[simp] theorem State.expireReport_setup (s : State) : (s.expireReport).setup = s.setup := rfl

@[simp] theorem State.announceInstalled_pending (m : Image) (s : State) :
    (s.announceInstalled m).pending = s.pending := rfl
@[simp] theorem State.announceInstalled_inReset (m : Image) (s : State) :
    (s.announceInstalled m).inReset = s.inReset := rfl
@[simp] theorem State.announceInstalled_pass (m : Image) (s : State) :
    (s.announceInstalled m).pass = s.pass := rfl
@[simp] theorem State.announceInstalled_intake (m : Image) (s : State) :
    (s.announceInstalled m).intake = s.intake := rfl
@[simp] theorem State.announceInstalled_channels (m : Image) (s : State) :
    (s.announceInstalled m).channels = s.channels := rfl
@[simp] theorem State.announceInstalled_lines (m : Image) (s : State) :
    (s.announceInstalled m).lines = s.lines := rfl
@[simp] theorem State.announceInstalled_writer (m : Image) (s : State) :
    (s.announceInstalled m).writer = s.writer := rfl
@[simp] theorem State.announceInstalled_tally (m : Image) (s : State) :
    (s.announceInstalled m).tally = s.tally := rfl
@[simp] theorem State.announceInstalled_setup (m : Image) (s : State) :
    (s.announceInstalled m).setup = s.setup := rfl

/-! ### Fields that an update writes -/

@[simp] theorem State.latch_alerts (b : AlertBit) (s : State) : (s.latch b).alerts = s.alerts.latch b := rfl
@[simp] theorem State.requestMirror_alerts (s : State) :
    s.requestMirror.alerts = s.alerts.request s.setup.part := rfl
@[simp] theorem State.withLedger_tally (x : Ledger) (s : State) : (s.withLedger x).tally = x.tally := rfl
@[simp] theorem State.withLedger_alerts (x : Ledger) (s : State) : (s.withLedger x).alerts = x.alerts := rfl
@[simp] theorem State.withBooks_channels (x : Books) (s : State) :
    (s.withBooks x).channels = x.channels := rfl
@[simp] theorem State.withBooks_lines (x : Books) (s : State) : (s.withBooks x).lines = x.lines := rfl
@[simp] theorem State.withBooks_tally (x : Books) (s : State) : (s.withBooks x).tally = x.ledger.tally := rfl
@[simp] theorem State.withBooks_alerts (x : Books) (s : State) :
    (s.withBooks x).alerts = x.ledger.alerts := rfl
@[simp] theorem State.withDesk_intake (x : Desk) (s : State) : (s.withDesk x).intake = x.intake := rfl
@[simp] theorem State.withDesk_alerts (x : Desk) (s : State) : (s.withDesk x).alerts = x.alerts := rfl
@[simp] theorem State.withMeters_meters (ms : Vector Meter 256) (s : State) :
    (s.withMeters ms).channels.meters = ms := rfl
@[simp] theorem State.withMeters_inHand (ms : Vector Meter 256) (s : State) :
    (s.withMeters ms).channels.inHand = s.channels.inHand := rfl
@[simp] theorem State.withMeters_pause (ms : Vector Meter 256) (s : State) :
    (s.withMeters ms).channels.pause = s.channels.pause := rfl
@[simp] theorem State.ledger_tally (s : State) : s.ledger.tally = s.tally := rfl
@[simp] theorem State.ledger_alerts (s : State) : s.ledger.alerts = s.alerts := rfl
@[simp] theorem State.books_channels (s : State) : s.books.channels = s.channels := rfl
@[simp] theorem State.books_lines (s : State) : s.books.lines = s.lines := rfl
@[simp] theorem State.books_ledger (s : State) : s.books.ledger = s.ledger := rfl
@[simp] theorem State.desk_intake (s : State) : s.desk.intake = s.intake := rfl
@[simp] theorem State.desk_alerts (s : State) : s.desk.alerts = s.alerts := rfl
@[simp] theorem State.freePort_port (s : State) : s.freePort.pass.port = .free := rfl
@[simp] theorem State.setRunCount_runCount (n : Nat) (s : State) : (s.setRunCount n).pass.runCount = n := rfl
@[simp] theorem State.writerStep_step (w : WriteStep) (s : State) :
    (s.writerStep w).writer.step = some w := rfl
@[simp] theorem State.writerStep_queue (w : WriteStep) (s : State) :
    (s.writerStep w).writer.queue = s.writer.queue := rfl
@[simp] theorem State.writerStep_rings (w : WriteStep) (s : State) :
    (s.writerStep w).writer.rings = s.writer.rings := rfl
@[simp] theorem State.setNotice_runCount (n : Notice) (s : State) :
    (s.setNotice n).pass.runCount = s.pass.runCount := rfl
@[simp] theorem State.freePort_runCount (s : State) : s.freePort.pass.runCount = s.pass.runCount := rfl
@[simp] theorem State.setPart_part (p : Part) (s : State) : (s.setPart p).setup.part = p := rfl
@[simp] theorem State.setPart_shadow (p : Part) (s : State) :
    (s.setPart p).setup.shadow = s.setup.shadow := rfl
@[simp] theorem State.setPart_active (p : Part) (s : State) :
    (s.setPart p).setup.active = s.setup.active := rfl
@[simp] theorem State.setPart_candidate (p : Part) (s : State) :
    (s.setPart p).setup.candidate = s.setup.candidate := rfl
@[simp] theorem State.setPart_base (p : Part) (s : State) : (s.setPart p).setup.base = s.setup.base := rfl

/-! ### Updates that branch -/

@[simp] theorem State.dropRequest_pending (s : State) :
    (s.dropRequest).pending = s.pending := by
  unfold State.dropRequest; (repeat' split) <;> rfl
@[simp] theorem State.dropRequest_inReset (s : State) :
    (s.dropRequest).inReset = s.inReset := by
  unfold State.dropRequest; (repeat' split) <;> rfl
@[simp] theorem State.dropRequest_channels (s : State) :
    (s.dropRequest).channels = s.channels := by
  unfold State.dropRequest; (repeat' split) <;> rfl
@[simp] theorem State.dropRequest_lines (s : State) :
    (s.dropRequest).lines = s.lines := by
  unfold State.dropRequest; (repeat' split) <;> rfl
@[simp] theorem State.dropRequest_writer (s : State) :
    (s.dropRequest).writer = s.writer := by
  unfold State.dropRequest; (repeat' split) <;> rfl
@[simp] theorem State.dropRequest_tally (s : State) :
    (s.dropRequest).tally = s.tally := by
  unfold State.dropRequest; (repeat' split) <;> rfl
@[simp] theorem State.dropRequest_setup (s : State) :
    (s.dropRequest).setup = s.setup := by
  unfold State.dropRequest; (repeat' split) <;> rfl

@[simp] theorem State.acceptWrite_pending (a : Nat) (ws : List WriteWord) (s : State) :
    (s.acceptWrite a ws).pending = s.pending := by
  unfold State.acceptWrite; (repeat' split) <;> rfl
@[simp] theorem State.acceptWrite_inReset (a : Nat) (ws : List WriteWord) (s : State) :
    (s.acceptWrite a ws).inReset = s.inReset := by
  unfold State.acceptWrite; (repeat' split) <;> rfl
@[simp] theorem State.acceptWrite_intake (a : Nat) (ws : List WriteWord) (s : State) :
    (s.acceptWrite a ws).intake = s.intake := by
  unfold State.acceptWrite; (repeat' split) <;> rfl
@[simp] theorem State.acceptWrite_channels (a : Nat) (ws : List WriteWord) (s : State) :
    (s.acceptWrite a ws).channels = s.channels := by
  unfold State.acceptWrite; (repeat' split) <;> rfl
@[simp] theorem State.acceptWrite_lines (a : Nat) (ws : List WriteWord) (s : State) :
    (s.acceptWrite a ws).lines = s.lines := by
  unfold State.acceptWrite; (repeat' split) <;> rfl
@[simp] theorem State.acceptWrite_writer (a : Nat) (ws : List WriteWord) (s : State) :
    (s.acceptWrite a ws).writer = s.writer := by
  unfold State.acceptWrite; (repeat' split) <;> rfl
@[simp] theorem State.acceptWrite_tally (a : Nat) (ws : List WriteWord) (s : State) :
    (s.acceptWrite a ws).tally = s.tally := by
  unfold State.acceptWrite; (repeat' split) <;> rfl
@[simp] theorem State.acceptWrite_setup (a : Nat) (ws : List WriteWord) (s : State) :
    (s.acceptWrite a ws).setup = s.setup := by
  unfold State.acceptWrite; (repeat' split) <;> rfl

@[simp] theorem State.afterRemoval_pending (s : State) :
    (s.afterRemoval).pending = s.pending := by
  unfold State.afterRemoval; (repeat' split) <;> simp
@[simp] theorem State.afterRemoval_inReset (s : State) :
    (s.afterRemoval).inReset = s.inReset := by
  unfold State.afterRemoval; (repeat' split) <;> simp
@[simp] theorem State.afterRemoval_channels (s : State) :
    (s.afterRemoval).channels = s.channels := by
  unfold State.afterRemoval; (repeat' split) <;> simp
@[simp] theorem State.afterRemoval_lines (s : State) :
    (s.afterRemoval).lines = s.lines := by
  unfold State.afterRemoval; (repeat' split) <;> simp
@[simp] theorem State.afterRemoval_writer (s : State) :
    (s.afterRemoval).writer = s.writer := by
  unfold State.afterRemoval; (repeat' split) <;> simp
@[simp] theorem State.afterRemoval_tally (s : State) :
    (s.afterRemoval).tally = s.tally := by
  unfold State.afterRemoval; (repeat' split) <;> simp
@[simp] theorem State.afterRemoval_setup (s : State) :
    (s.afterRemoval).setup = s.setup := by
  unfold State.afterRemoval; (repeat' split) <;> simp

@[simp] theorem State.testMarks_pending (s : State) :
    (s.testMarks).pending = s.pending := by
  unfold State.testMarks; (repeat' split) <;> simp
@[simp] theorem State.testMarks_inReset (s : State) :
    (s.testMarks).inReset = s.inReset := by
  unfold State.testMarks; (repeat' split) <;> simp
@[simp] theorem State.testMarks_channels (s : State) :
    (s.testMarks).channels = s.channels := by
  unfold State.testMarks; (repeat' split) <;> simp
@[simp] theorem State.testMarks_lines (s : State) :
    (s.testMarks).lines = s.lines := by
  unfold State.testMarks; (repeat' split) <;> simp
@[simp] theorem State.testMarks_writer (s : State) :
    (s.testMarks).writer = s.writer := by
  unfold State.testMarks; (repeat' split) <;> simp
@[simp] theorem State.testMarks_tally (s : State) :
    (s.testMarks).tally = s.tally := by
  unfold State.testMarks; (repeat' split) <;> simp
@[simp] theorem State.testMarks_setup (s : State) :
    (s.testMarks).setup = s.setup := by
  unfold State.testMarks; (repeat' split) <;> simp

@[simp] theorem State.retestHold_pending (s : State) :
    (s.retestHold).pending = s.pending := by
  unfold State.retestHold; (repeat' split) <;> rfl
@[simp] theorem State.retestHold_inReset (s : State) :
    (s.retestHold).inReset = s.inReset := by
  unfold State.retestHold; (repeat' split) <;> rfl
@[simp] theorem State.retestHold_intake (s : State) :
    (s.retestHold).intake = s.intake := by
  unfold State.retestHold; (repeat' split) <;> rfl
@[simp] theorem State.retestHold_channels (s : State) :
    (s.retestHold).channels = s.channels := by
  unfold State.retestHold; (repeat' split) <;> rfl
@[simp] theorem State.retestHold_lines (s : State) :
    (s.retestHold).lines = s.lines := by
  unfold State.retestHold; (repeat' split) <;> rfl
@[simp] theorem State.retestHold_writer (s : State) :
    (s.retestHold).writer = s.writer := by
  unfold State.retestHold; (repeat' split) <;> rfl
@[simp] theorem State.retestHold_tally (s : State) :
    (s.retestHold).tally = s.tally := by
  unfold State.retestHold; (repeat' split) <;> rfl
@[simp] theorem State.retestHold_setup (s : State) :
    (s.retestHold).setup = s.setup := by
  unfold State.retestHold; (repeat' split) <;> rfl
@[simp] theorem State.retestHold_alerts (s : State) :
    (s.retestHold).alerts = s.alerts := by
  unfold State.retestHold; (repeat' split) <;> rfl

@[simp] theorem State.consumerWord_pending (n : Fin 16) (w : WriteWord) (s : State) :
    (s.consumerWord n w).pending = s.pending := by
  unfold State.consumerWord; dsimp only; (repeat' split) <;> rfl
@[simp] theorem State.consumerWord_inReset (n : Fin 16) (w : WriteWord) (s : State) :
    (s.consumerWord n w).inReset = s.inReset := by
  unfold State.consumerWord; dsimp only; (repeat' split) <;> rfl
@[simp] theorem State.consumerWord_pass (n : Fin 16) (w : WriteWord) (s : State) :
    (s.consumerWord n w).pass = s.pass := by
  unfold State.consumerWord; dsimp only; (repeat' split) <;> rfl
@[simp] theorem State.consumerWord_intake (n : Fin 16) (w : WriteWord) (s : State) :
    (s.consumerWord n w).intake = s.intake := by
  unfold State.consumerWord; dsimp only; (repeat' split) <;> rfl
@[simp] theorem State.consumerWord_channels (n : Fin 16) (w : WriteWord) (s : State) :
    (s.consumerWord n w).channels = s.channels := by
  unfold State.consumerWord; dsimp only; (repeat' split) <;> rfl
@[simp] theorem State.consumerWord_lines (n : Fin 16) (w : WriteWord) (s : State) :
    (s.consumerWord n w).lines = s.lines := by
  unfold State.consumerWord; dsimp only; (repeat' split) <;> rfl
@[simp] theorem State.consumerWord_tally (n : Fin 16) (w : WriteWord) (s : State) :
    (s.consumerWord n w).tally = s.tally := by
  unfold State.consumerWord; dsimp only; (repeat' split) <;> rfl
@[simp] theorem State.consumerWord_setup (n : Fin 16) (w : WriteWord) (s : State) :
    (s.consumerWord n w).setup = s.setup := by
  unfold State.consumerWord; dsimp only; (repeat' split) <;> rfl

@[simp] theorem State.stepClock_pending (v : Word) (s : State) :
    (s.stepClock v).pending = s.pending := by
  unfold State.stepClock; split <;> rfl
@[simp] theorem State.stepClock_inReset (v : Word) (s : State) :
    (s.stepClock v).inReset = s.inReset := by
  unfold State.stepClock; split <;> rfl
@[simp] theorem State.stepClock_pass (v : Word) (s : State) :
    (s.stepClock v).pass = s.pass := by
  unfold State.stepClock; split <;> rfl
@[simp] theorem State.stepClock_intake (v : Word) (s : State) :
    (s.stepClock v).intake = s.intake := by
  unfold State.stepClock; split <;> rfl
@[simp] theorem State.stepClock_writer (v : Word) (s : State) :
    (s.stepClock v).writer = s.writer := by
  unfold State.stepClock; split <;> rfl
@[simp] theorem State.stepClock_setup (v : Word) (s : State) :
    (s.stepClock v).setup = s.setup := by
  unfold State.stepClock; split <;> rfl

@[simp] theorem State.handOverHead_pending (s : State) :
    (s.handOverHead).pending = s.pending := by
  unfold State.handOverHead; dsimp only; (repeat' split) <;> rfl
@[simp] theorem State.handOverHead_inReset (s : State) :
    (s.handOverHead).inReset = s.inReset := by
  unfold State.handOverHead; dsimp only; (repeat' split) <;> rfl
@[simp] theorem State.handOverHead_pass (s : State) :
    (s.handOverHead).pass = s.pass := by
  unfold State.handOverHead; dsimp only; (repeat' split) <;> rfl
@[simp] theorem State.handOverHead_intake (s : State) :
    (s.handOverHead).intake = s.intake := by
  unfold State.handOverHead; dsimp only; (repeat' split) <;> rfl
@[simp] theorem State.handOverHead_channels (s : State) :
    (s.handOverHead).channels = s.channels := by
  unfold State.handOverHead; dsimp only; (repeat' split) <;> rfl
@[simp] theorem State.handOverHead_tally (s : State) :
    (s.handOverHead).tally = s.tally := by
  unfold State.handOverHead; dsimp only; (repeat' split) <;> rfl
@[simp] theorem State.handOverHead_setup (s : State) :
    (s.handOverHead).setup = s.setup := by
  unfold State.handOverHead; dsimp only; (repeat' split) <;> rfl

@[simp] theorem State.handOverMiss_pending (s : State) :
    (s.handOverMiss).pending = s.pending := by
  unfold State.handOverMiss; (repeat' split) <;> rfl
@[simp] theorem State.handOverMiss_inReset (s : State) :
    (s.handOverMiss).inReset = s.inReset := by
  unfold State.handOverMiss; (repeat' split) <;> rfl
@[simp] theorem State.handOverMiss_pass (s : State) :
    (s.handOverMiss).pass = s.pass := by
  unfold State.handOverMiss; (repeat' split) <;> rfl
@[simp] theorem State.handOverMiss_intake (s : State) :
    (s.handOverMiss).intake = s.intake := by
  unfold State.handOverMiss; (repeat' split) <;> rfl
@[simp] theorem State.handOverMiss_channels (s : State) :
    (s.handOverMiss).channels = s.channels := by
  unfold State.handOverMiss; (repeat' split) <;> rfl
@[simp] theorem State.handOverMiss_lines (s : State) :
    (s.handOverMiss).lines = s.lines := by
  unfold State.handOverMiss; (repeat' split) <;> rfl
@[simp] theorem State.handOverMiss_setup (s : State) :
    (s.handOverMiss).setup = s.setup := by
  unfold State.handOverMiss; (repeat' split) <;> rfl
@[simp] theorem State.handOverMiss_alerts (s : State) :
    (s.handOverMiss).alerts = s.alerts := by
  unfold State.handOverMiss; (repeat' split) <;> rfl

@[simp] theorem State.takeHead_pending (s : State) :
    (s.takeHead).pending = s.pending := by
  unfold State.takeHead; dsimp only; (repeat' split) <;> rfl
@[simp] theorem State.takeHead_inReset (s : State) :
    (s.takeHead).inReset = s.inReset := by
  unfold State.takeHead; dsimp only; (repeat' split) <;> rfl
@[simp] theorem State.takeHead_pass (s : State) :
    (s.takeHead).pass = s.pass := by
  unfold State.takeHead; dsimp only; (repeat' split) <;> rfl
@[simp] theorem State.takeHead_intake (s : State) :
    (s.takeHead).intake = s.intake := by
  unfold State.takeHead; dsimp only; (repeat' split) <;> rfl
@[simp] theorem State.takeHead_channels (s : State) :
    (s.takeHead).channels = s.channels := by
  unfold State.takeHead; dsimp only; (repeat' split) <;> rfl
@[simp] theorem State.takeHead_lines (s : State) :
    (s.takeHead).lines = s.lines := by
  unfold State.takeHead; dsimp only; (repeat' split) <;> rfl
@[simp] theorem State.takeHead_tally (s : State) :
    (s.takeHead).tally = s.tally := by
  unfold State.takeHead; dsimp only; (repeat' split) <;> rfl
@[simp] theorem State.takeHead_setup (s : State) :
    (s.takeHead).setup = s.setup := by
  unfold State.takeHead; dsimp only; (repeat' split) <;> rfl

@[simp] theorem State.discardRecord_pending (s : State) :
    (s.discardRecord).pending = s.pending := by
  unfold State.discardRecord; (repeat' split) <;> rfl
@[simp] theorem State.discardRecord_inReset (s : State) :
    (s.discardRecord).inReset = s.inReset := by
  unfold State.discardRecord; (repeat' split) <;> rfl
@[simp] theorem State.discardRecord_pass (s : State) :
    (s.discardRecord).pass = s.pass := by
  unfold State.discardRecord; (repeat' split) <;> rfl
@[simp] theorem State.discardRecord_intake (s : State) :
    (s.discardRecord).intake = s.intake := by
  unfold State.discardRecord; (repeat' split) <;> rfl
@[simp] theorem State.discardRecord_channels (s : State) :
    (s.discardRecord).channels = s.channels := by
  unfold State.discardRecord; (repeat' split) <;> rfl
@[simp] theorem State.discardRecord_lines (s : State) :
    (s.discardRecord).lines = s.lines := by
  unfold State.discardRecord; (repeat' split) <;> rfl
@[simp] theorem State.discardRecord_tally (s : State) :
    (s.discardRecord).tally = s.tally := by
  unfold State.discardRecord; (repeat' split) <;> rfl
@[simp] theorem State.discardRecord_setup (s : State) :
    (s.discardRecord).setup = s.setup := by
  unfold State.discardRecord; (repeat' split) <;> rfl

@[simp] theorem State.publishRecord_pending (s : State) :
    (s.publishRecord).pending = s.pending := by
  unfold State.publishRecord; (repeat' split) <;> rfl
@[simp] theorem State.publishRecord_inReset (s : State) :
    (s.publishRecord).inReset = s.inReset := by
  unfold State.publishRecord; (repeat' split) <;> rfl
@[simp] theorem State.publishRecord_pass (s : State) :
    (s.publishRecord).pass = s.pass := by
  unfold State.publishRecord; (repeat' split) <;> rfl
@[simp] theorem State.publishRecord_intake (s : State) :
    (s.publishRecord).intake = s.intake := by
  unfold State.publishRecord; (repeat' split) <;> rfl
@[simp] theorem State.publishRecord_channels (s : State) :
    (s.publishRecord).channels = s.channels := by
  unfold State.publishRecord; (repeat' split) <;> rfl
@[simp] theorem State.publishRecord_lines (s : State) :
    (s.publishRecord).lines = s.lines := by
  unfold State.publishRecord; (repeat' split) <;> rfl
@[simp] theorem State.publishRecord_tally (s : State) :
    (s.publishRecord).tally = s.tally := by
  unfold State.publishRecord; (repeat' split) <;> rfl
@[simp] theorem State.publishRecord_setup (s : State) :
    (s.publishRecord).setup = s.setup := by
  unfold State.publishRecord; (repeat' split) <;> rfl
@[simp] theorem State.publishRecord_alerts (s : State) :
    (s.publishRecord).alerts = s.alerts := by
  unfold State.publishRecord; (repeat' split) <;> rfl

@[simp] theorem State.handleRecord_pending (r : TapRecord) (e : Fin 256) (s : State) :
    (s.handleRecord r e).pending = s.pending := by
  unfold State.handleRecord; dsimp only; (repeat' split) <;> rfl
@[simp] theorem State.handleRecord_inReset (r : TapRecord) (e : Fin 256) (s : State) :
    (s.handleRecord r e).inReset = s.inReset := by
  unfold State.handleRecord; dsimp only; (repeat' split) <;> rfl
@[simp] theorem State.handleRecord_pass (r : TapRecord) (e : Fin 256) (s : State) :
    (s.handleRecord r e).pass = s.pass := by
  unfold State.handleRecord; dsimp only; (repeat' split) <;> rfl
@[simp] theorem State.handleRecord_intake (r : TapRecord) (e : Fin 256) (s : State) :
    (s.handleRecord r e).intake = s.intake := by
  unfold State.handleRecord; dsimp only; (repeat' split) <;> rfl
@[simp] theorem State.handleRecord_writer (r : TapRecord) (e : Fin 256) (s : State) :
    (s.handleRecord r e).writer = s.writer := by
  unfold State.handleRecord; dsimp only; (repeat' split) <;> rfl
@[simp] theorem State.handleRecord_setup (r : TapRecord) (e : Fin 256) (s : State) :
    (s.handleRecord r e).setup = s.setup := by
  unfold State.handleRecord; dsimp only; (repeat' split) <;> rfl

@[simp] theorem State.takeRecord_pending (s : State) :
    (s.takeRecord).pending = s.pending := by
  unfold State.takeRecord; dsimp only; (repeat' split) <;> simp
@[simp] theorem State.takeRecord_inReset (s : State) :
    (s.takeRecord).inReset = s.inReset := by
  unfold State.takeRecord; dsimp only; (repeat' split) <;> simp
@[simp] theorem State.takeRecord_writer (s : State) :
    (s.takeRecord).writer = s.writer := by
  unfold State.takeRecord; dsimp only; (repeat' split) <;> simp
@[simp] theorem State.takeRecord_setup (s : State) :
    (s.takeRecord).setup = s.setup := by
  unfold State.takeRecord; dsimp only; (repeat' split) <;> simp

@[simp] theorem State.expireStale_pending (e : Fin 256) (s : State) :
    (s.expireStale e).pending = s.pending := rfl
@[simp] theorem State.expireStale_inReset (e : Fin 256) (s : State) :
    (s.expireStale e).inReset = s.inReset := rfl
@[simp] theorem State.expireStale_pass (e : Fin 256) (s : State) :
    (s.expireStale e).pass = s.pass := rfl
@[simp] theorem State.expireStale_intake (e : Fin 256) (s : State) :
    (s.expireStale e).intake = s.intake := rfl
@[simp] theorem State.expireStale_lines (e : Fin 256) (s : State) :
    (s.expireStale e).lines = s.lines := rfl
@[simp] theorem State.expireStale_writer (e : Fin 256) (s : State) :
    (s.expireStale e).writer = s.writer := rfl
@[simp] theorem State.expireStale_tally (e : Fin 256) (s : State) :
    (s.expireStale e).tally = s.tally := rfl
@[simp] theorem State.expireStale_setup (e : Fin 256) (s : State) :
    (s.expireStale e).setup = s.setup := rfl

@[simp] theorem State.enterSpill_pending (s : State) :
    (s.enterSpill).pending = s.pending := by
  unfold State.enterSpill; (repeat' split) <;> simp
@[simp] theorem State.enterSpill_inReset (s : State) :
    (s.enterSpill).inReset = s.inReset := by
  unfold State.enterSpill; (repeat' split) <;> simp
@[simp] theorem State.enterSpill_channels (s : State) :
    (s.enterSpill).channels = s.channels := by
  unfold State.enterSpill; (repeat' split) <;> simp
@[simp] theorem State.enterSpill_lines (s : State) :
    (s.enterSpill).lines = s.lines := by
  unfold State.enterSpill; (repeat' split) <;> simp
@[simp] theorem State.enterSpill_writer (s : State) :
    (s.enterSpill).writer = s.writer := by
  unfold State.enterSpill; (repeat' split) <;> simp
@[simp] theorem State.enterSpill_tally (s : State) :
    (s.enterSpill).tally = s.tally := by
  unfold State.enterSpill; (repeat' split) <;> simp
@[simp] theorem State.enterSpill_setup (s : State) :
    (s.enterSpill).setup = s.setup := by
  unfold State.enterSpill; (repeat' split) <;> simp

@[simp] theorem State.closeDue_pending (s : State) :
    (s.closeDue).pending = s.pending := by
  unfold State.closeDue; (repeat' split) <;> simp
@[simp] theorem State.closeDue_inReset (s : State) :
    (s.closeDue).inReset = s.inReset := by
  unfold State.closeDue; (repeat' split) <;> simp
@[simp] theorem State.closeDue_pass (s : State) :
    (s.closeDue).pass = s.pass := by
  unfold State.closeDue; (repeat' split) <;> simp
@[simp] theorem State.closeDue_intake (s : State) :
    (s.closeDue).intake = s.intake := by
  unfold State.closeDue; (repeat' split) <;> simp
@[simp] theorem State.closeDue_writer (s : State) :
    (s.closeDue).writer = s.writer := by
  unfold State.closeDue; (repeat' split) <;> simp
@[simp] theorem State.closeDue_setup (s : State) :
    (s.closeDue).setup = s.setup := by
  unfold State.closeDue; (repeat' split) <;> simp

@[simp] theorem State.takeReserveRead_pending (r : ReadAnswer 8) (s : State) :
    (s.takeReserveRead r).pending = s.pending := by
  unfold State.takeReserveRead; dsimp only; (repeat' split) <;> rfl
@[simp] theorem State.takeReserveRead_inReset (r : ReadAnswer 8) (s : State) :
    (s.takeReserveRead r).inReset = s.inReset := by
  unfold State.takeReserveRead; dsimp only; (repeat' split) <;> rfl
@[simp] theorem State.takeReserveRead_intake (r : ReadAnswer 8) (s : State) :
    (s.takeReserveRead r).intake = s.intake := by
  unfold State.takeReserveRead; dsimp only; (repeat' split) <;> rfl
@[simp] theorem State.takeReserveRead_channels (r : ReadAnswer 8) (s : State) :
    (s.takeReserveRead r).channels = s.channels := by
  unfold State.takeReserveRead; dsimp only; (repeat' split) <;> rfl
@[simp] theorem State.takeReserveRead_lines (r : ReadAnswer 8) (s : State) :
    (s.takeReserveRead r).lines = s.lines := by
  unfold State.takeReserveRead; dsimp only; (repeat' split) <;> rfl
@[simp] theorem State.takeReserveRead_writer (r : ReadAnswer 8) (s : State) :
    (s.takeReserveRead r).writer = s.writer := by
  unfold State.takeReserveRead; dsimp only; (repeat' split) <;> rfl
@[simp] theorem State.takeReserveRead_setup (r : ReadAnswer 8) (s : State) :
    (s.takeReserveRead r).setup = s.setup := by
  unfold State.takeReserveRead; dsimp only; (repeat' split) <;> rfl

@[simp] theorem State.takeConditionalWrite_pending (r : Answer) (s : State) :
    (s.takeConditionalWrite r).pending = s.pending := by
  unfold State.takeConditionalWrite; dsimp only; (repeat' split) <;> rfl
@[simp] theorem State.takeConditionalWrite_inReset (r : Answer) (s : State) :
    (s.takeConditionalWrite r).inReset = s.inReset := by
  unfold State.takeConditionalWrite; dsimp only; (repeat' split) <;> rfl
@[simp] theorem State.takeConditionalWrite_intake (r : Answer) (s : State) :
    (s.takeConditionalWrite r).intake = s.intake := by
  unfold State.takeConditionalWrite; dsimp only; (repeat' split) <;> rfl
@[simp] theorem State.takeConditionalWrite_channels (r : Answer) (s : State) :
    (s.takeConditionalWrite r).channels = s.channels := by
  unfold State.takeConditionalWrite; dsimp only; (repeat' split) <;> rfl
@[simp] theorem State.takeConditionalWrite_lines (r : Answer) (s : State) :
    (s.takeConditionalWrite r).lines = s.lines := by
  unfold State.takeConditionalWrite; dsimp only; (repeat' split) <;> rfl
@[simp] theorem State.takeConditionalWrite_writer (r : Answer) (s : State) :
    (s.takeConditionalWrite r).writer = s.writer := by
  unfold State.takeConditionalWrite; dsimp only; (repeat' split) <;> rfl
@[simp] theorem State.takeConditionalWrite_setup (r : Answer) (s : State) :
    (s.takeConditionalWrite r).setup = s.setup := by
  unfold State.takeConditionalWrite; dsimp only; (repeat' split) <;> rfl

@[simp] theorem State.answerMirror_pending (r : Answer) (s : State) :
    (s.answerMirror r).pending = s.pending := by
  unfold State.answerMirror; dsimp only; (repeat' split) <;> rfl
@[simp] theorem State.answerMirror_inReset (r : Answer) (s : State) :
    (s.answerMirror r).inReset = s.inReset := by
  unfold State.answerMirror; dsimp only; (repeat' split) <;> rfl
@[simp] theorem State.answerMirror_intake (r : Answer) (s : State) :
    (s.answerMirror r).intake = s.intake := by
  unfold State.answerMirror; dsimp only; (repeat' split) <;> rfl
@[simp] theorem State.answerMirror_channels (r : Answer) (s : State) :
    (s.answerMirror r).channels = s.channels := by
  unfold State.answerMirror; dsimp only; (repeat' split) <;> rfl
@[simp] theorem State.answerMirror_lines (r : Answer) (s : State) :
    (s.answerMirror r).lines = s.lines := by
  unfold State.answerMirror; dsimp only; (repeat' split) <;> rfl
@[simp] theorem State.answerMirror_writer (r : Answer) (s : State) :
    (s.answerMirror r).writer = s.writer := by
  unfold State.answerMirror; dsimp only; (repeat' split) <;> rfl
@[simp] theorem State.answerMirror_tally (r : Answer) (s : State) :
    (s.answerMirror r).tally = s.tally := by
  unfold State.answerMirror; dsimp only; (repeat' split) <;> rfl
@[simp] theorem State.answerMirror_setup (r : Answer) (s : State) :
    (s.answerMirror r).setup = s.setup := by
  unfold State.answerMirror; dsimp only; (repeat' split) <;> rfl

@[simp] theorem State.takeObservation_pending (s : State) :
    (s.takeObservation).pending = s.pending := by
  unfold State.takeObservation; (repeat' split) <;> rfl
@[simp] theorem State.takeObservation_inReset (s : State) :
    (s.takeObservation).inReset = s.inReset := by
  unfold State.takeObservation; (repeat' split) <;> rfl
@[simp] theorem State.takeObservation_intake (s : State) :
    (s.takeObservation).intake = s.intake := by
  unfold State.takeObservation; (repeat' split) <;> rfl
@[simp] theorem State.takeObservation_channels (s : State) :
    (s.takeObservation).channels = s.channels := by
  unfold State.takeObservation; (repeat' split) <;> rfl
@[simp] theorem State.takeObservation_lines (s : State) :
    (s.takeObservation).lines = s.lines := by
  unfold State.takeObservation; (repeat' split) <;> rfl
@[simp] theorem State.takeObservation_writer (s : State) :
    (s.takeObservation).writer = s.writer := by
  unfold State.takeObservation; (repeat' split) <;> rfl
@[simp] theorem State.takeObservation_tally (s : State) :
    (s.takeObservation).tally = s.tally := by
  unfold State.takeObservation; (repeat' split) <;> rfl
@[simp] theorem State.takeObservation_setup (s : State) :
    (s.takeObservation).setup = s.setup := by
  unfold State.takeObservation; (repeat' split) <;> rfl

end Sys2Proof.Machine
end

