-- ==== Sys2Proof/Laws/Ops.lean ====
section
/-! SUPPORT. One lemma for each shared operation that says once everything it can do: the shape of a step, the
latching of a bit, a report, tables, posting, the drop of the hold request, acceptance. -/

namespace Sys2Proof.Machine

/-! ### Tables -/

/-- A table's entry is what its function gives. -/
@[simp] theorem tabulate_get {α : Type} (n : Nat) (f : Fin n → α) (i : Fin n) : (tabulate n f)[i] = f i := by
  simp [tabulate, Vector.getElem_mk]

/-- A table's entry, by a number in range. -/
@[simp] theorem tabulate_get_nat {α : Type} (n : Nat) (f : Fin n → α) (i : Nat) (h : i < n) :
    (tabulate n f)[i] = f ⟨i, h⟩ := tabulate_get n f ⟨i, h⟩

/-- The entry that a write put into a table. -/
@[simp] theorem set_get_self {α : Type} {n : Nat} (v : Vector α n) (i : Fin n) (x : α) :
    (v.set i x)[i] = x := by simp

/-- Every other entry of the table is left. -/
theorem set_get_other {α : Type} {n : Nat} (v : Vector α n) (i j : Fin n) (x : α) (h : j ≠ i) :
    (v.set i x)[j] = v[j] := by
  have : i.val ≠ j.val := fun e => h (Fin.ext e.symm)
  simp [this]

/-- Two tables with the same entries are equal. -/
theorem vector_ext {α : Type} {n : Nat} {v w : Vector α n} (h : ∀ i : Fin n, v[i] = w[i]) : v = w := by
  apply Vector.ext
  intro i hi
  exact h ⟨i, hi⟩

/-! ### Field maxima -/

@[simp] theorem top_8 : top 8 = 255 := rfl
@[simp] theorem top_16 : top 16 = 65535 := rfl
@[simp] theorem top_32 : top 32 = 4294967295 := rfl
@[simp] theorem top_64 : top 64 = 18446744073709551615 := rfl

/-- A running timer is lowered by one, and a stopped one stays stopped. -/
theorem lowered_eq (o : Option Nat) : lowered o = o.map (fun k => k - 1) := by cases o <;> rfl

/-! ### The shape of a step -/

/-- A step that can arise has its effect, and the Alert Unit then requests the next owed group. -/
theorem stepWhen_can {can : Bool} (f : State → State) (s : State) (h : can = true) :
    stepWhen can f s = .next (f s).requestMirror := by simp [stepWhen, h]

/-- A step that cannot arise leaves the state. -/
theorem stepWhen_cannot {can : Bool} (f : State → State) (s : State) (h : can = false) :
    stepWhen can f s = .next s := by simp [stepWhen, h]

/-- The end of a step writes the mirror write in hand alone. -/
theorem requestMirror_eq (s : State) :
    s.requestMirror = { s with alerts := { s.alerts with mirror := s.requestMirror.alerts.mirror } } := by
  unfold State.requestMirror Alerts.request
  split <;> rfl

/-- A step that can arise, with the mirror write that its end requests. -/
theorem stepWhen_eq {can : Bool} (f : State → State) (s : State) (h : can = true) :
    ∃ m, stepWhen can f s = .next { f s with alerts := { (f s).alerts with mirror := m } } :=
  ⟨_, by rw [stepWhen_can f s h]; exact congrArg _ (requestMirror_eq (f s))⟩

/-- A step in the form of a statement: where the effect is known, so is the outcome, up to the mirror write. -/
theorem stepWhen_of_eq {can : Bool} {f : State → State} {s t : State} (h : can = true) (e : f s = t) :
    ∃ m, stepWhen can f s = .next { t with alerts := { t.alerts with mirror := m } } := by
  subst e; exact stepWhen_eq f s h

/-- A property that the effect gives and the mirror write does not touch holds after the step. -/
theorem stepWhen_keeps {can : Bool} {f : State → State} {s t : State} {P : State → Prop}
    (e : stepWhen can f s = .next t) (hs : P s) (hf : can = true → P (f s))
    (hm : ∀ u, P u → P u.requestMirror) : P t := by
  unfold stepWhen at e
  injection e with e
  subst e
  split
  · next h => exact hm _ (hf h)
  · exact hs

/-- Every step leaves either the state or what its effect and the mirror request come to. -/
theorem stepWhen_next {can : Bool} {f : State → State} {s t : State} (e : stepWhen can f s = .next t) :
    (can = false ∧ t = s) ∨ (can = true ∧ t = (f s).requestMirror) := by
  unfold stepWhen at e
  injection e with e
  subst e
  cases can
  · exact .inl ⟨rfl, rfl⟩
  · exact .inr ⟨rfl, rfl⟩

@[simp] theorem requestMirror_latched (s : State) : s.requestMirror.alerts.latched = s.alerts.latched := by
  rw [requestMirror_eq]
@[simp] theorem requestMirror_owed (s : State) : s.requestMirror.alerts.owed = s.alerts.owed := by
  rw [requestMirror_eq]
@[simp] theorem requestMirror_counters (s : State) : s.requestMirror.alerts.counters = s.alerts.counters := by
  rw [requestMirror_eq]
@[simp] theorem requestMirror_reportTimer (s : State) :
    s.requestMirror.alerts.reportTimer = s.alerts.reportTimer := by rw [requestMirror_eq]
@[simp] theorem requestMirror_readHold (s : State) : s.requestMirror.alerts.readHold = s.alerts.readHold := by
  rw [requestMirror_eq]
@[simp] theorem requestMirror_applyResult (s : State) :
    s.requestMirror.alerts.applyResult = s.alerts.applyResult := by rw [requestMirror_eq]
@[simp] theorem requestMirror_commandResult (s : State) :
    s.requestMirror.alerts.commandResult = s.alerts.commandResult := by rw [requestMirror_eq]

/-! ### Latching (R165) -/

/-- The mask of a bit has that bit alone. -/
theorem AlertBit.getLsbD_mask (b : AlertBit) (k : Nat) (h : k < 22) :
    b.mask.getLsbD k = decide (k = b.number) := by
  simp only [AlertBit.mask, BitVec.getLsbD_twoPow]
  by_cases e : k = b.number
  · subst e; simp [h]
  · simp [e, Ne.symm e]

theorem AlertBit.number_lt (b : AlertBit) : b.number < 22 := by cases b <;> decide

theorem AlertBit.number_inj {a b : AlertBit} (h : a.number = b.number) : a = b := by
  cases a <;> cases b <;> first | rfl | (exact absurd h (by decide))

/-- Setting a bit that is set changes nothing. -/
theorem Alerts.or_mask_of_has {a : Alerts} {b : AlertBit} (h : a.has b = true) :
    a.latched ||| b.mask = a.latched := by
  apply BitVec.eq_of_getLsbD_eq
  intro k hk
  rw [BitVec.getLsbD_or, AlertBit.getLsbD_mask b k hk]
  by_cases e : k = b.number
  · subst e; rw [show a.latched.getLsbD b.number = true from h]; rfl
  · simp [e]

/-- A latch sets its bit, and makes the latched group owed where the bit was clear. -/
theorem Alerts.latch_eq (b : AlertBit) (a : Alerts) : a.latch b = { a with
    latched := a.latched ||| b.mask,
    owed := { a.owed with latched := a.owed.latched || !a.has b } } := by
  unfold Alerts.latch
  cases h : a.has b
  · simp
  · simp [Alerts.or_mask_of_has h]

/-- After a latch the bit is set and every other bit is as it was. -/
theorem Alerts.has_latch (a : Alerts) (b x : AlertBit) : (a.latch b).has x = (a.has x || decide (x = b)) := by
  rw [Alerts.latch_eq]
  simp only [Alerts.has, BitVec.getLsbD_or, AlertBit.getLsbD_mask b _ x.number_lt]
  congr 1
  exact decide_eq_decide.mpr ⟨AlertBit.number_inj, fun e => e ▸ rfl⟩

@[simp] theorem Alerts.has_latch_self (a : Alerts) (b : AlertBit) : (a.latch b).has b = true := by
  simp [Alerts.has_latch]

@[simp] theorem Alerts.latch_counters (a : Alerts) (b : AlertBit) : (a.latch b).counters = a.counters := by
  rw [Alerts.latch_eq]
@[simp] theorem Alerts.latch_reportTimer (a : Alerts) (b : AlertBit) :
    (a.latch b).reportTimer = a.reportTimer := by rw [Alerts.latch_eq]
@[simp] theorem Alerts.latch_mirror (a : Alerts) (b : AlertBit) : (a.latch b).mirror = a.mirror := by
  rw [Alerts.latch_eq]
@[simp] theorem Alerts.latch_readHold (a : Alerts) (b : AlertBit) : (a.latch b).readHold = a.readHold := by
  rw [Alerts.latch_eq]
@[simp] theorem Alerts.latch_applyResult (a : Alerts) (b : AlertBit) :
    (a.latch b).applyResult = a.applyResult := by rw [Alerts.latch_eq]
@[simp] theorem Alerts.latch_commandResult (a : Alerts) (b : AlertBit) :
    (a.latch b).commandResult = a.commandResult := by rw [Alerts.latch_eq]

theorem Alerts.has_latchIf (a : Alerts) (c : Bool) (b x : AlertBit) :
    (a.latchIf c b).has x = (a.has x || (c && decide (x = b))) := by
  cases c <;> simp [Alerts.latchIf, Alerts.has_latch]

@[simp] theorem Alerts.latchIf_counters (a : Alerts) (c : Bool) (b : AlertBit) :
    (a.latchIf c b).counters = a.counters := by cases c <;> simp [Alerts.latchIf]
@[simp] theorem Alerts.latchIf_reportTimer (a : Alerts) (c : Bool) (b : AlertBit) :
    (a.latchIf c b).reportTimer = a.reportTimer := by cases c <;> simp [Alerts.latchIf]
@[simp] theorem Alerts.latchIf_mirror (a : Alerts) (c : Bool) (b : AlertBit) :
    (a.latchIf c b).mirror = a.mirror := by cases c <;> simp [Alerts.latchIf]
@[simp] theorem Alerts.latchIf_readHold (a : Alerts) (c : Bool) (b : AlertBit) :
    (a.latchIf c b).readHold = a.readHold := by cases c <;> simp [Alerts.latchIf]
@[simp] theorem Alerts.latchIf_applyResult (a : Alerts) (c : Bool) (b : AlertBit) :
    (a.latchIf c b).applyResult = a.applyResult := by cases c <;> simp [Alerts.latchIf]
@[simp] theorem Alerts.latchIf_commandResult (a : Alerts) (c : Bool) (b : AlertBit) :
    (a.latchIf c b).commandResult = a.commandResult := by cases c <;> simp [Alerts.latchIf]

/-- The result of a command handed over: the held result, its group owed, COMMAND_DONE latched (R163). -/
theorem Alerts.giveResult_eq (word : Word) (r : CommandOutcome) (a : Alerts) : a.giveResult word r = { a with
    commandResult := { word := word, result := r },
    owed := { a.owed with commandResult := true, latched := a.owed.latched || !a.has .commandDone },
    latched := a.latched ||| AlertBit.commandDone.mask } := by
  unfold Alerts.giveResult
  rw [Alerts.latch_eq]
  rfl

/-! ### Reports (R37, R165, R177) -/

/-- A report touches the latched word, the counters and the latched group's flag alone. -/
theorem Alerts.report_frame (m : Image) (c : DefectClass) (a : Alerts) :
    { a.report m c with latched := a.latched, counters := a.counters, owed := a.owed } = a := by
  unfold Alerts.report Alerts.count Alerts.latchIf
  split <;> split <;> simp [Alerts.latch_eq]

/-- A counter that selects the class rises by one, saturating; any other is left. -/
theorem Alerts.report_counters (m : Image) (c : DefectClass) (a : Alerts) (i : Fin 4) :
    (a.report m c).counters[i] =
      if m.selects i c then (a.counters[i]).increment else a.counters[i] := by
  unfold Alerts.report Alerts.count
  cases c.bit <;> simp [-Fin.getElem_fin]

/-- The bits after a report: those before, the class's own bit, and COUNTER_FULL where a count reaches its
maximum. -/
theorem Alerts.has_report (m : Image) (c : DefectClass) (a : Alerts) (x : AlertBit) :
    (a.report m c).has x = (a.has x || (decide (c.bit = some x) ||
      ((List.finRange 4).any (fun i => m.selects i c && decide (top 16 ≤ a.counters[i].count + 1)) &&
        decide (x = .counterFull)))) := by
  have h : ∀ b : Alerts, (b.count m c).has x = (b.has x ||
      ((List.finRange 4).any (fun i => m.selects i c && decide (top 16 ≤ b.counters[i].count + 1)) &&
        decide (x = .counterFull))) := by
    intro b
    unfold Alerts.count
    rw [Alerts.has_latchIf]
    rfl
  unfold Alerts.report
  cases hb : c.bit with
  | none => rw [h]; simp
  | some b =>
    rw [Alerts.has_latch, h]
    simp only [Option.some.injEq, eq_comm (a := b)]
    cases a.has x <;> cases (decide (x = b)) <;> simp

/-! ### Posting and misses (R126, R136) -/

/-- A post joins the queue's tail while the queue holds fewer than 32. -/
theorem Ledger.post_joins (x : Ledger) (u : Update) (h : x.tally.queue.length < 32) :
    x.post u = { x with tally := { x.tally with queue := x.tally.queue ++ [u] } } := if_pos h

/-- A post to a full queue is turned away. -/
theorem Ledger.post_full (x : Ledger) (u : Update) (h : ¬ x.tally.queue.length < 32) :
    x.post u = x.turnAway .queueFull u := if_neg h

/-- A post writes the queue or the lost-tally totals of the engine, nothing else of it. -/
theorem Ledger.post_tally_frame (x : Ledger) (u : Update) :
    { (x.post u).tally with queue := x.tally.queue, lost := x.tally.lost } = x.tally := by
  unfold Ledger.post Ledger.turnAway
  split <;> rfl

/-- A post keeps the queue's depth. -/
theorem Ledger.post_length (x : Ledger) (u : Update) (h : x.tally.queue.length ≤ 32) :
    (x.post u).tally.queue.length ≤ 32 := by
  unfold Ledger.post Ledger.turnAway
  split
  · simp only [List.length_append, List.length_singleton]; omega
  · exact h

/-- An update sent to the miss list keeps the list's depth. -/
theorem Ledger.miss_length (reason : MissReason) (locked : Bool) (u : Update) (x : Ledger)
    (h : x.tally.misses.length ≤ 16) : (x.miss reason locked u).tally.misses.length ≤ 16 := by
  unfold Ledger.miss Ledger.turnAway
  split
  · simpa using h
  · split
    · simp only [List.length_append, List.length_singleton]; omega
    · exact h

/-- The end of an update's service leaves no reservation (R131). -/
@[simp] theorem Tally.finish_reservation (t : Tally) : t.finish.reservation = none := rfl

/-- A miss touches the miss list and the lost-tally totals of the engine alone. -/
theorem Ledger.miss_tally_frame (reason : MissReason) (locked : Bool) (u : Update) (x : Ledger) :
    { (x.miss reason locked u).tally with misses := x.tally.misses, lost := x.tally.lost } = x.tally := by
  unfold Ledger.miss Ledger.turnAway
  split
  · rfl
  · split <;> rfl

/-! ### Closes and hand-overs (R84, R98) -/

/-- When the closes of the last advance have been taken and no hand-over stands that the writer queue has room
for. -/
theorem State.closesTaken_iff (s : State) : s.closesTaken = true ↔
    s.lines.dueHead = none ∧ (s.lines.handOver = [] ∨ 16 ≤ s.writer.queue.length) := by
  simp [State.closesTaken, State.handOversTaken]

/-! ### Acceptance (R11, R12) -/

/-- A burst that touches no guarded region takes the slot and does nothing else. -/
theorem State.acceptWrite_free (a : Nat) (ws : List WriteWord) (s : State)
    (h : s.touchesGuard a ws.length = false) :
    s.acceptWrite a ws = { s with pass := { s.pass with slot := some (.write a ws) } } := by
  simp [State.acceptWrite, h]

/-- A burst that touches one latches GUARD; under REFUSE it is answered with ERROR, else it takes the slot. -/
theorem State.acceptWrite_touching (a : Nat) (ws : List WriteWord) (s : State)
    (h : s.touchesGuard a ws.length = true) :
    s.acceptWrite a ws = { s with
      pass := if s.cfg.refuses then { s.pass with lastAnswer := some .error }
        else { s.pass with slot := some (.write a ws) },
      alerts := s.alerts.latch .guard } := by
  simp only [State.acceptWrite, h, if_true]
  split <;> rfl

end Sys2Proof.Machine
end

