-- ==== Sys2Proof/Laws/Frames.lean ====
section
/-! SUPPORT. What no command but RESET touches: the queue's rest, the RESET level and the placement; and which
effects leave the Setup Unit alone. -/

namespace Sys2Proof.Machine

/-- `t` has the queue, the RESET level and the placement of `s`. -/
def SameOuter (s t : State) : Prop :=
  t.pending = s.pending ∧ t.inReset = s.inReset ∧ t.setup.base = s.setup.base

theorem SameOuter.refl (s : State) : SameOuter s s := ⟨rfl, rfl, rfl⟩

theorem SameOuter.trans {s t u : State} (h : SameOuter s t) (g : SameOuter t u) : SameOuter s u :=
  ⟨g.1.trans h.1, g.2.1.trans h.2.1, g.2.2.trans h.2.2⟩

/-- A state with the same queue, level and Setup Unit. -/
theorem SameOuter.of_setup {s t : State} (h : t.pending = s.pending) (g : t.inReset = s.inReset)
    (k : t.setup = s.setup) : SameOuter s t := ⟨h, g, by rw [k]⟩

theorem stepWhen_outer {can : Bool} {f : State → State} {s : State} (h : SameOuter s (f s)) :
    ∃ t, stepWhen can f s = .next t ∧ SameOuter s t := by
  cases can
  · exact ⟨s, rfl, .refl s⟩
  · exact ⟨_, rfl, h⟩

/-! ### Hand-overs and matches -/

/-- What each hand-over keeps, a run of them keeps. -/
theorem State.handOvers_keeps {P : State → Prop}
    (hand : ∀ s : State, P s → s.handOversTaken = false → P s.handOverHead) (k : Nat) :
    ∀ s : State, P s → P (s.handOvers k) := by
  induction k with
  | zero => exact fun _ h => h
  | succ k ih =>
    intro s h
    unfold State.handOvers
    split
    · exact h
    · next g => exact ih _ (hand s h (by simpa using g))

/-- With no hand-over that the writer queue has room for, none is made. -/
theorem State.handOvers_taken (k : Nat) (s : State) (h : s.handOversTaken = true) : s.handOvers k = s := by
  cases k <;> simp [State.handOvers, h]

/-- What each hand-over and each delivery keeps, the matchers' part in a notice keeps. -/
theorem State.matchNotice_keeps {P : State → Prop}
    (hand : ∀ s : State, P s → s.handOversTaken = false → P s.handOverHead)
    (deliver : ∀ (s : State) (m : Image) (n : Fin 16) (e : LineEvent), P s → P (s.withBooks (s.books.deliver m n e)))
    (m : Image) (a : Nat) (ws : List WriteWord) (s : State) (h : P s) : P (s.matchNotice m a ws) := by
  unfold State.matchNotice
  generalize List.finRange 16 = l
  induction l generalizing s with
  | nil => exact h
  | cons i l ih =>
    refine ih _ ?_
    dsimp only
    split
    · split
      · exact deliver _ _ _ _ (State.handOvers_keeps hand 16 s h)
      · exact h
    · exact h

@[simp] theorem State.matchNotice_pending (m : Image) (a : Nat) (ws : List WriteWord) (s : State) :
    (s.matchNotice m a ws).pending = s.pending :=
  State.matchNotice_keeps (P := fun t => t.pending = s.pending) (fun _ h _ => by simpa using h) (fun _ _ _ _ h => h) m a ws s rfl
@[simp] theorem State.matchNotice_inReset (m : Image) (a : Nat) (ws : List WriteWord) (s : State) :
    (s.matchNotice m a ws).inReset = s.inReset :=
  State.matchNotice_keeps (P := fun t => t.inReset = s.inReset) (fun _ h _ => by simpa using h) (fun _ _ _ _ h => h) m a ws s rfl
@[simp] theorem State.matchNotice_pass (m : Image) (a : Nat) (ws : List WriteWord) (s : State) :
    (s.matchNotice m a ws).pass = s.pass :=
  State.matchNotice_keeps (P := fun t => t.pass = s.pass) (fun _ h _ => by simpa using h) (fun _ _ _ _ h => h) m a ws s rfl
@[simp] theorem State.matchNotice_intake (m : Image) (a : Nat) (ws : List WriteWord) (s : State) :
    (s.matchNotice m a ws).intake = s.intake :=
  State.matchNotice_keeps (P := fun t => t.intake = s.intake) (fun _ h _ => by simpa using h) (fun _ _ _ _ h => h) m a ws s rfl
@[simp] theorem State.matchNotice_setup (m : Image) (a : Nat) (ws : List WriteWord) (s : State) :
    (s.matchNotice m a ws).setup = s.setup :=
  State.matchNotice_keeps (P := fun t => t.setup = s.setup) (fun _ h _ => by simpa using h) (fun _ _ _ _ h => h) m a ws s rfl

/-- Hand-overs and matches read nothing of the Pass Controller. -/
theorem State.handOvers_withPass (p : Pass) (k : Nat) : ∀ s : State,
    ({ s with pass := p }).handOvers k = { s.handOvers k with pass := p } := by
  have hand : ∀ s : State, ({ s with pass := p }).handOverHead = { s.handOverHead with pass := p } := by
    intro s
    unfold State.handOverHead
    dsimp only
    split
    · rfl
    · split <;> rfl
  induction k with
  | zero => exact fun _ => rfl
  | succ k ih =>
    intro s
    unfold State.handOvers
    by_cases h : s.handOversTaken = true
    · rw [if_pos h, if_pos (show ({ s with pass := p } : State).handOversTaken = true from h)]
    · rw [if_neg h, if_neg (show ¬({ s with pass := p } : State).handOversTaken = true from h), hand, ih]

theorem State.matchNotice_withPass (p : Pass) (m : Image) (a : Nat) (ws : List WriteWord) (s : State) :
    ({ s with pass := p }).matchNotice m a ws = { s.matchNotice m a ws with pass := p } := by
  unfold State.matchNotice
  generalize List.finRange 16 = l
  induction l generalizing s with
  | nil => rfl
  | cons i l ih =>
    rw [List.foldl_cons, List.foldl_cons, ← ih]
    congr 1
    split
    · split
      · unfold State.deliverMatch
        dsimp only
        rw [State.handOvers_withPass]
        rfl
      · rfl
    · rfl

/-- The notice of a write in a part that is ACTIVE or APPLYING, in the order of R3. -/
theorem State.writeNotice_working (a : Nat) (ws : List WriteWord) (s : State) (h : s.setup.part.working = true) :
    ∃ x, x = (s.withDesk (s.desk.notice s.cfg s.pass.spilling a ws)).matchNotice s.cfg a ws ∧
    s.writeNotice a ws =
      ({ x with tally := x.tally.breakReservation s.cfg a ws }).setNotice (s.noticeOf a ws) :=
  ⟨_, rfl, by unfold State.writeNotice; simp only [h, if_true]⟩

/-- The notice of a write in a part that is FETCHING or UNSET. -/
theorem State.writeNotice_resting (a : Nat) (ws : List WriteWord) (s : State) (h : s.setup.part.working = false) :
    s.writeNotice a ws =
      ({ s with tally := s.tally.breakReservation s.cfg a ws }).setNotice (s.noticeOf a ws) := by
  unfold State.writeNotice
  simp [h]

/-! ### The arbiter's grants leave the Setup Unit -/

theorem State.setNotice_outer (n : Notice) (s : State) : SameOuter s (s.setNotice n) := ⟨rfl, rfl, rfl⟩

@[simp] theorem State.writeNotice_setup (a : Nat) (ws : List WriteWord) (s : State) :
    (s.writeNotice a ws).setup = s.setup := by
  unfold State.writeNotice; split <;> simp
@[simp] theorem State.writeNotice_pending (a : Nat) (ws : List WriteWord) (s : State) :
    (s.writeNotice a ws).pending = s.pending := by
  unfold State.writeNotice; split <;> simp
@[simp] theorem State.writeNotice_inReset (a : Nat) (ws : List WriteWord) (s : State) :
    (s.writeNotice a ws).inReset = s.inReset := by
  unfold State.writeNotice; split <;> simp

@[simp] theorem State.grantPassthrough_setup (s : State) : s.grantPassthrough.setup = s.setup := by
  unfold State.grantPassthrough; split <;> simp
@[simp] theorem State.grantPassthrough_pending (s : State) : s.grantPassthrough.pending = s.pending := by
  unfold State.grantPassthrough; split <;> simp
@[simp] theorem State.grantPassthrough_inReset (s : State) : s.grantPassthrough.inReset = s.inReset := by
  unfold State.grantPassthrough; split <;> simp

@[simp] theorem State.grantTally_setup (c : Client) (s : State) : (s.grantTally c).setup = s.setup := by
  unfold State.grantTally; split <;> [rfl; (dsimp only; split <;> rfl)]
@[simp] theorem State.grantTally_pending (c : Client) (s : State) : (s.grantTally c).pending = s.pending := by
  unfold State.grantTally; split <;> [rfl; (dsimp only; split <;> rfl)]
@[simp] theorem State.grantTally_inReset (c : Client) (s : State) : (s.grantTally c).inReset = s.inReset := by
  unfold State.grantTally; split <;> [rfl; (dsimp only; split <;> rfl)]

@[simp] theorem State.grant_setup (c : Choice) (s : State) : (s.grant c).setup = s.setup := by
  cases c <;> simp [State.grant]
@[simp] theorem State.grant_pending (c : Choice) (s : State) : (s.grant c).pending = s.pending := by
  cases c <;> simp [State.grant]
@[simp] theorem State.grant_inReset (c : Choice) (s : State) : (s.grant c).inReset = s.inReset := by
  cases c <;> simp [State.grant]

@[simp] theorem State.decideAmong_setup (t : Option Client) (s : State) :
    (s.decideAmong t).setup = s.setup := by unfold State.decideAmong; split <;> simp
@[simp] theorem State.decideAmong_pending (t : Option Client) (s : State) :
    (s.decideAmong t).pending = s.pending := by unfold State.decideAmong; split <;> simp
@[simp] theorem State.decideAmong_inReset (t : Option Client) (s : State) :
    (s.decideAmong t).inReset = s.inReset := by unfold State.decideAmong; split <;> simp

@[simp] theorem State.arbitrate_setup (s : State) : s.arbitrate.setup = s.setup := by
  unfold State.arbitrate; split <;> simp
@[simp] theorem State.arbitrate_pending (s : State) : s.arbitrate.pending = s.pending := by
  unfold State.arbitrate; split <;> simp
@[simp] theorem State.arbitrate_inReset (s : State) : s.arbitrate.inReset = s.inReset := by
  unfold State.arbitrate; split <;> simp

/-! ### Acceptances -/

@[simp] theorem State.presentWrite_setup (a : Nat) (ws : List WriteWord) (s : State) :
    (s.presentWrite a ws).setup = s.setup := by
  unfold State.presentWrite; split <;> [skip; split] <;> simp
@[simp] theorem State.presentRead_setup (a : Nat) (es : List (BitVec 4)) (s : State) :
    (s.presentRead a es).setup = s.setup := by
  unfold State.presentRead; split <;> [skip; split] <;> simp

theorem State.presentWrite_outer (a : Nat) (ws : List WriteWord) (s : State) :
    SameOuter s (s.presentWrite a ws) := by
  unfold State.presentWrite; split <;> [skip; split] <;> (apply SameOuter.of_setup <;> simp)
theorem State.presentRead_outer (a : Nat) (es : List (BitVec 4)) (s : State) :
    SameOuter s (s.presentRead a es) := by
  unfold State.presentRead; split <;> [skip; split] <;> (apply SameOuter.of_setup <;> simp)

@[simp] theorem State.releaseHold_setup (s : State) : s.releaseHold.setup = s.setup := by
  unfold State.releaseHold; split <;> simp
theorem State.releaseHold_outer (s : State) : SameOuter s s.releaseHold := by
  unfold State.releaseHold; split <;> (apply SameOuter.of_setup <;> simp)

@[simp] theorem State.releaseRead_setup (s : State) : s.releaseRead.setup = s.setup := by
  unfold State.releaseRead; split <;> simp
theorem State.releaseRead_outer (s : State) : SameOuter s s.releaseRead := by
  unfold State.releaseRead; split <;> (apply SameOuter.of_setup <;> simp)

/-! ### Commands -/

/-- A command writes nothing of the Setup Unit (R163). -/
theorem State.command_setup (w a : Word) (s : State) : (s.command w a).1.setup = s.setup := by
  unfold State.command
  split
  · unfold State.closeNamed; split <;> rfl
  · simp [State.restartUnits]
  · unfold State.reprimeEntry; split <;> [(dsimp only; split <;> rfl); rfl]
  · rfl
  · unfold State.injectFault; split <;> rfl
  · rfl

theorem State.command_outer (w a : Word) (s : State) : SameOuter s (s.command w a).1 := by
  refine SameOuter.of_setup ?_ ?_ (State.command_setup w a s) <;>
  · unfold State.command
    split
    · unfold State.closeNamed; split <;> rfl
    · simp [State.restartUnits]
    · unfold State.reprimeEntry; split <;> [(dsimp only; split <;> rfl); rfl]
    · rfl
    · unfold State.injectFault; split <;> rfl
    · rfl

theorem State.carryOut_outer (w a : Word) (s : State) : SameOuter s (s.carryOut w a) :=
  State.command_outer w a s

theorem State.dealWith_outer (w a : Word) (s : State) : SameOuter s (s.dealWith w a) := by
  unfold State.dealWith
  split
  · exact .refl s
  · split <;> exact ⟨rfl, rfl, rfl⟩
  · exact ⟨rfl, rfl, rfl⟩
  · split
    · exact .refl s
    · exact State.carryOut_outer w a s

theorem State.takeCommand_outer (s : State) : SameOuter s s.takeCommand := by
  unfold State.takeCommand
  split
  · exact .refl s
  · exact SameOuter.trans ⟨rfl, rfl, rfl⟩ (State.dealWith_outer _ _ _)

/-! ### The Setup Unit's own steps -/

theorem State.startApply_outer (s : State) : SameOuter s s.startApply := ⟨rfl, rfl, rfl⟩

theorem State.testGeneration_outer (s : State) : SameOuter s s.testGeneration := by
  unfold State.testGeneration
  split
  · exact .refl s
  · exact State.startApply_outer s
  · split
    · exact .refl s
    · exact State.startApply_outer s
  · exact ⟨rfl, rfl, rfl⟩

theorem State.afterApply_outer (s : State) : SameOuter s s.afterApply := by
  have h : ∀ u : State, SameOuter u (if u.setup.pendingApply then
      { u with setup := { u.setup with pendingApply := false } }.startApply else u) := by
    intro u; split
    · exact ⟨rfl, rfl, rfl⟩
    · exact .refl u
  unfold State.afterApply
  split
  · refine SameOuter.trans ?_ (h _)
    refine SameOuter.trans ?_ (State.dealWith_outer _ _ _)
    exact ⟨rfl, rfl, rfl⟩
  · exact h _

theorem State.installUnits_setup (old new : Image) (had : Bool) (s : State) :
    (s.installUnits old new had).setup =
      { s.setup with active := some new, candidate := none, part := .active } := by
  simp [State.installUnits]

theorem State.installUnits_outer (old new : Image) (had : Bool) (s : State) :
    SameOuter s (s.installUnits old new had) :=
  ⟨by simp [State.installUnits], by simp [State.installUnits], by rw [State.installUnits_setup]⟩

theorem State.install_outer (s : State) : SameOuter s s.install := by
  unfold State.install
  refine SameOuter.trans ?_ (State.afterApply_outer _)
  exact SameOuter.trans (t := s.installUnits s.cfg s.candidateImage s.setup.active.isSome)
    (State.installUnits_outer _ _ _ s) ⟨rfl, rfl, rfl⟩

theorem State.rejectApply_outer (r : Reject) (s : State) : SameOuter s (s.rejectApply r) := by
  unfold State.rejectApply
  refine SameOuter.trans ?_ (State.afterApply_outer _)
  exact ⟨rfl, rfl, rfl⟩

theorem State.completeValidation_outer (s : State) : SameOuter s s.completeValidation := by
  unfold State.completeValidation
  split
  · exact State.rejectApply_outer _ s
  · exact ⟨rfl, rfl, rfl⟩

theorem State.completeFetch_outer (s : State) : SameOuter s s.completeFetch := by
  have h : ∀ u : State, SameOuter s u →
      SameOuter s (if s.setup.shadow.generation = s.candidateImage.generation then u.endFetch
        else u.endFetch.startApply) := by
    intro u g
    split
    · exact SameOuter.trans g ⟨rfl, rfl, rfl⟩
    · exact SameOuter.trans g ⟨rfl, rfl, rfl⟩
  unfold State.completeFetch
  apply h
  split
  · exact ⟨rfl, rfl, rfl⟩
  · exact SameOuter.trans (t := s.installUnits [] s.candidateImage false)
      (State.installUnits_outer _ _ _ s) ⟨rfl, rfl, rfl⟩

theorem State.answerFetch_outer (a : ReadAnswer 16) (s : State) : SameOuter s (s.answerFetch a) := by
  cases a <;> exact ⟨rfl, rfl, rfl⟩

/-! ### The Result Writer's steps -/

@[simp] theorem State.answerRecordWrite_setup (a : Answer) (s : State) :
    (s.answerRecordWrite a).setup = s.setup := by
  unfold State.answerRecordWrite; cases a <;> [rfl; (dsimp only; split <;> simp)]
@[simp] theorem State.answerIndexWrite_setup (a : Answer) (s : State) :
    (s.answerIndexWrite a).setup = s.setup := by
  unfold State.answerIndexWrite; cases a <;> [simp; (dsimp only; split <;> simp)]
@[simp] theorem State.answerInitialisingWrite_setup (a : Answer) (s : State) :
    (s.answerInitialisingWrite a).setup = s.setup := by cases a <;> rfl

theorem State.answerRecordWrite_outer (a : Answer) (s : State) : SameOuter s (s.answerRecordWrite a) := by
  apply SameOuter.of_setup <;>
  · unfold State.answerRecordWrite; cases a <;> [rfl; (dsimp only; split <;> simp)]
theorem State.answerIndexWrite_outer (a : Answer) (s : State) : SameOuter s (s.answerIndexWrite a) := by
  apply SameOuter.of_setup <;>
  · unfold State.answerIndexWrite; cases a <;> [simp; (dsimp only; split <;> simp)]

theorem State.consumerNotice_outer (a : Nat) (ws : List WriteWord) (s : State) :
    SameOuter s (s.consumerNotice a ws) ∧ (s.consumerNotice a ws).setup = s.setup := by
  unfold State.consumerNotice
  generalize addressed a ws = l
  induction l generalizing s with
  | nil => exact ⟨.refl s, rfl⟩
  | cons c rest ih =>
    simp only [List.foldl_cons]
    have h : SameOuter s (match s.cfg.consumerLine c.1 with
        | some n => s.consumerWord n c.2
        | none => s) ∧ (match s.cfg.consumerLine c.1 with
        | some n => s.consumerWord n c.2
        | none => s).setup = s.setup := by
      split
      · exact ⟨SameOuter.of_setup (by simp) (by simp) (by simp), by simp⟩
      · exact ⟨.refl s, rfl⟩
    exact ⟨h.1.trans (ih _).1, (ih _).2.trans h.2⟩

/-! ### Every command but RESET -/

/-- A command other than RESET_ASSERT and RESET_RELEASE leaves the queue's rest, the RESET level and the placement
(R19). -/
theorem exec_outer {c : Instr} {s t : State} (h : c ≠ .resetAssert) (g : ∀ straps, c ≠ .resetRelease straps)
    (e : exec c s = .next t) : SameOuter s t := by
  have key : ∀ {can : Bool} {f : State → State}, stepWhen can f s = .next t → SameOuter s (f s) →
      SameOuter s t := by
    intro can f e k
    rcases stepWhen_next e with ⟨_, rfl⟩ | ⟨_, rfl⟩
    · exact .refl _
    · exact k.trans ⟨rfl, rfl, rfl⟩
  cases c
  case resetAssert => exact absurd rfl h
  case resetRelease straps => exact absurd rfl (g straps)
  case upstreamWrite a ws =>
    simp only [exec, execUpstreamWrite] at e
    split at e
    · exact key e (State.presentWrite_outer _ _ _)
    · cases e
  case upstreamRead a ws =>
    simp only [exec, execUpstreamRead] at e
    split at e
    · exact key e (State.presentRead_outer _ _ _)
    · cases e
  case holdRelease => exact key e (State.releaseHold_outer s)
  case readHoldRelease => exact key e (State.releaseRead_outer s)
  case arbiterDecision => exact key e (SameOuter.of_setup (by simp) (by simp) (by simp))
  case setupCapture => exact key e (by unfold State.capture; split <;> exact ⟨rfl, rfl, rfl⟩)
  case clockWordWrite =>
    exact key e (by unfold State.takeClockWord; split <;> (apply SameOuter.of_setup <;> simp))
  case generationWrite =>
    refine key e ?_
    unfold State.takeGeneration
    split
    · exact .refl s
    · exact SameOuter.trans (State.setNotice_outer _ _) (State.testGeneration_outer _)
  case consumerIndexWrite =>
    refine key e ?_
    unfold State.takeConsumer
    split
    · exact .refl s
    · exact SameOuter.trans (State.setNotice_outer _ _) (State.consumerNotice_outer _ _ _).1
  case noCommand => exact key e (State.takeCommand_outer s)
  case closeBins => exact key e (State.takeCommand_outer s)
  case restart => exact key e (State.takeCommand_outer s)
  case reprime => exact key e (State.takeCommand_outer s)
  case transferCounters => exact key e (State.takeCommand_outer s)
  case injectCheckFault => exact key e (State.takeCommand_outer s)
  case undefinedCommand => exact key e (State.takeCommand_outer s)
  case recordWriteResponse a => exact key e (State.answerRecordWrite_outer a s)
  case indexWriteResponse a => exact key e (State.answerIndexWrite_outer a s)
  case fetchReadResponse a => exact key e (State.answerFetch_outer a s)
  case fetchValidationCompletion => exact key e (State.completeFetch_outer s)
  case validationCompletion => exact key e (State.completeValidation_outer s)
  case installation => exact key e (State.install_outer s)
  case initialisingWriteResponse a =>
    refine key e ?_
    cases a <;> exact ⟨rfl, rfl, rfl⟩
  all_goals
    simp only [exec, execTickPulse, execClockAdvance, execAssemblyTimeout, execStaleExpiry,
      execChangeoverTimerExpiry, execBinBoundaryExpiry, execReportTimerExpiry, execHoldLimitExpiry,
      execBackoffExpiry, execLatchedAlertRead, execPassthroughResponse, execRecordTake, execHandOver,
      execTallyMissHandOver, execTakeIntoHand, execUpdateIntoHand, execReserveReadResponse,
      execConditionalWriteResponse, execMirrorWriteResponse, execQuiesceMet,
      execDiscardedDownstreamResponse] at e
    first
    | exact key e ⟨rfl, rfl, rfl⟩
    | exact key e (SameOuter.of_setup (by simp) (by simp) (by simp))

end Sys2Proof.Machine
end

