-- ==== Sys2Proof/Laws/Units.lean ====
section
/-! SUPPORT. What each unit's shared operations write, as one equation each: the drop of the hold request, the
handling of a record, the installation, the ring of a discarded record; and what the Line Unit's operations leave
of the Tally Engine. -/

namespace Sys2Proof.Machine

/-! ### Latching never clears a bit -/

/-- `b` comes from `a` by latching bits and owing groups alone. -/
structure Alerts.Grew (a b : Alerts) : Prop where
  frame : { b with latched := a.latched, owed := a.owed } = a
  keeps : ∀ x, a.has x = true → b.has x = true

theorem Alerts.Grew.refl (a : Alerts) : Grew a a := ⟨rfl, fun _ h => h⟩
theorem Alerts.Grew.trans {a b c : Alerts} (h : Grew a b) (g : Grew b c) : Grew a c := by
  refine ⟨?_, fun x k => g.keeps x (h.keeps x k)⟩
  have := h.frame; rw [← g.frame] at this; exact this
theorem Alerts.Grew.counters {a b : Alerts} (h : Grew a b) : b.counters = a.counters := by
  have := congrArg Alerts.counters h.frame; exact this
theorem Alerts.Grew.reportTimer {a b : Alerts} (h : Grew a b) : b.reportTimer = a.reportTimer := by
  have := congrArg Alerts.reportTimer h.frame; exact this
theorem Alerts.Grew.mirror {a b : Alerts} (h : Grew a b) : b.mirror = a.mirror := by
  have := congrArg Alerts.mirror h.frame; exact this
theorem Alerts.grew_latch (a : Alerts) (b : AlertBit) : Grew a (a.latch b) :=
  ⟨by rw [Alerts.latch_eq], fun x h => by rw [Alerts.has_latch, h]; rfl⟩
theorem Alerts.grew_latchIf (a : Alerts) (c : Bool) (b : AlertBit) : Grew a (a.latchIf c b) := by
  cases c <;> [exact Grew.refl a; exact grew_latch a b]
theorem Alerts.grew_oweRealTime (a : Alerts) : Grew a a.oweRealTime := ⟨rfl, fun _ h => h⟩
theorem Alerts.grew_rise (a : Alerts) (c : Condition) : Grew a (a.rise c) :=
  (grew_oweRealTime a).trans (grew_latch _ _)
theorem Alerts.grew_fall (m : Image) (a : Alerts) (c : Condition) : Grew a (a.fall m c) :=
  (grew_oweRealTime a).trans (grew_latchIf _ _ _)
theorem Alerts.grew_follow (m : Image) (a : Alerts) (c : Condition) (x y : Bool) :
    Grew a (a.follow m c x y) := by
  cases x <;> cases y <;> first | exact Grew.refl _ | exact grew_rise _ _ | exact grew_fall _ _ _

/-! ### The hold request and the installation -/

/-- The drop writes the hold request, spill or the due release, and grows the alerts (R7, R9). -/
theorem State.dropRequest_eq (s : State) : ∃ (sp rd : Bool) (al : Alerts), s.dropRequest = { s with
    intake := { s.intake with holdRequest := false }
    pass := { s.pass with spilling := sp, releaseDue := rd }
    alerts := al } ∧ Alerts.Grew s.alerts al := by
  unfold State.dropRequest
  split
  · split
    · exact ⟨_, _, _, rfl, Alerts.grew_fall _ _ _⟩
    · exact ⟨_, _, _, rfl, Alerts.Grew.refl _⟩
  · next h =>
    have : s.intake.holdRequest = false := by simpa using h
    refine ⟨s.pass.spilling, s.pass.releaseDue, s.alerts, ?_, Alerts.Grew.refl _⟩
    rw [← this]

/-- The test of the marks writes what a drop writes (R36). -/
theorem State.testMarks_eq (s : State) : ∃ (hr sp rd : Bool) (al : Alerts), s.testMarks = { s with
    intake := { s.intake with holdRequest := hr }
    pass := { s.pass with spilling := sp, releaseDue := rd }
    alerts := al } ∧ Alerts.Grew s.alerts al := by
  unfold State.testMarks
  split
  · exact ⟨_, _, _, _, rfl, Alerts.Grew.refl _⟩
  · split
    · obtain ⟨a, b, c, h, g⟩ := State.dropRequest_eq s; exact ⟨_, a, b, c, h, g⟩
    · exact ⟨_, _, _, _, rfl, Alerts.Grew.refl _⟩

/-- The retest of a waiting burst writes the due release alone (R7). -/
theorem State.retestHold_eq (s : State) : ∃ rd : Bool, s.retestHold = { s with pass := { s.pass with
    releaseDue := rd } } := by
  unfold State.retestHold
  split
  · split <;> exact ⟨_, rfl⟩
  · exact ⟨_, rfl⟩

/-- What an installation writes of each unit (R159). -/
theorem State.installUnits_eq (old new : Image) (had : Bool) (s : State) : ∃ (hr sp rd : Bool) (al : Alerts),
   s.installUnits old new had = { s with
     setup := { s.setup with active := some new, candidate := none, part := .active }
     intake := { s.intake.installed old new had with holdRequest := hr }
     pass := { s.pass with spilling := sp, releaseDue := rd }
     lines := s.lines.installed old new
     writer := s.writer.installed old new
     channels := { s.channels with pause := false, meters := s.channels.installed old new }
     alerts := al } ∧ Alerts.Grew (s.alerts.installed old new had) al := by
  unfold State.installUnits
  dsimp only
  generalize hs1 : ({ s with
    setup := { s.setup with active := some new, candidate := none, part := .active }
    intake := s.intake.installed old new had
    lines := s.lines.installed old new
    writer := s.writer.installed old new
    alerts := s.alerts.installed old new had
    channels := { s.channels with pause := false } } : State) = s1
  obtain ⟨rd0, h1⟩ := State.retestHold_eq s1
  obtain ⟨hr, sp, rd, al, h2, g⟩ := State.testMarks_eq s1.retestHold
  rw [h2, h1]
  rw [h1] at g
  unfold State.withMeters
  refine ⟨hr, sp, rd, ?al, ?_, ?_⟩
  rotate_left
  · rw [← hs1]; rfl
  · rw [← hs1] at g
    exact g.trans (Alerts.grew_follow _ _ _ _ _)

/-! ### Taking a record -/

/-- A removal drops the hold request at the low-water mark (R35). -/
theorem State.afterRemoval_eq (s : State) : ∃ (sp rd : Bool) (al : Alerts), s.afterRemoval = { s with
    intake := { s.intake with holdRequest := s.intake.holdRequest && decide (s.cfg.lowWater <
        s.intake.queue.length) }
    pass := { s.pass with spilling := sp, releaseDue := rd }
    alerts := al } := by
  unfold State.afterRemoval
  split
  · next h =>
    have : decide (s.cfg.lowWater < s.intake.queue.length) = false := by simpa using h
    rw [this, Bool.and_false]; obtain ⟨a, b, c, h, _⟩ := State.dropRequest_eq s; exact ⟨a, b, c, h⟩
  · next h =>
    have : decide (s.cfg.lowWater < s.intake.queue.length) = true := by simpa using h
    rw [this, Bool.and_true]; exact ⟨_, _, _, rfl⟩

/-- The handling of a record writes its entry, its line and the alerts (R53 to R74). -/
theorem State.handleRecord_eq (r : TapRecord) (e : Fin 256) (s : State) :
    let c := s.cfg.channel e
    let h := (s.channels.meters[e]).handle c s.cfg.reprimeThreshold r
    let l := s.lines.lines[c.line]
    let l1 := if h.reprimed then l.reprimeNotice.1 else l
    ∃ (M : Meter) (L : Line) (al : Alerts), s.handleRecord r e = { s with
      channels := { s.channels with meters := s.channels.meters.set e M }
      lines := { s.lines with lines := s.lines.lines.set c.line L }
      alerts := al } ∧
    (h.counts = none → M = h.meter ∧ L = l1) ∧
    (∀ d carried, h.counts = some (d, carried) →
        let q := c.convert l.unitWeight h.meter.residue d
        M = { h.meter with residue := q.2.2 } ∧
        L = if q.2.1 = 0 then l1 else (l1.credit (s.cfg.kind c.line) {
          quantity := q.1, amount := q.2.1, estimated := r.quality == Quality.estimated,
          carriedIn := carried }).1) := by
  intro c h l l1
  have sl : s.lines.lines.set c.line s.lines.lines[c.line] = s.lines.lines := by simp
  rcases hc : h.counts with _ | ⟨d, carried⟩
  · by_cases hr : h.reprimed = true
    · refine ⟨h.meter, l.reprimeNotice.1, ?_⟩
      refine ⟨?al1, ?eq1, fun _ => ⟨rfl, by simp only [l1, hr, if_true]⟩, fun _ _ q => by cases q⟩
      case eq1 =>
        unfold State.handleRecord
        simp only [show (s.channels.meters[e]).handle (s.cfg.channel e) s.cfg.reprimeThreshold r = h from
            rfl, hc, hr, if_true]
        rfl
    · have hr : h.reprimed = false := by simpa using hr
      refine ⟨h.meter, l, ?_⟩
      refine ⟨?al2, ?eq2, fun _ => ⟨rfl, by simp only [l1, hr, Bool.false_eq_true, if_false]⟩,
          fun _ _ q => by cases q⟩
      case eq2 =>
        unfold State.handleRecord
        simp only [show (s.channels.meters[e]).handle (s.cfg.channel e) s.cfg.reprimeThreshold r = h from
            rfl, hc, hr, Bool.false_eq_true, if_false]
        rw [sl]
        rfl
  · let q := c.convert l.unitWeight h.meter.residue d
    by_cases hr : h.reprimed = true <;> by_cases hz : q.2.1 = 0
    · refine ⟨{ h.meter with residue := q.2.2 }, l.reprimeNotice.1, ?_⟩
      refine ⟨?al3, ?eq3, (fun q => by cases q), fun d' c' e' => ?_⟩
      case eq3 =>
        unfold State.handleRecord
        simp only [show (s.channels.meters[e]).handle (s.cfg.channel e) s.cfg.reprimeThreshold r = h from
            rfl, hc, hr, if_true]
        have hz' : ((s.cfg.channel e).convert (s.lines.lines[(s.cfg.channel e).line]).unitWeight
            h.meter.residue d).2.1 = 0 := hz
        rw [if_pos hz']
        rfl
      · obtain ⟨rfl, rfl⟩ := Prod.mk.inj (Option.some.inj e')
        refine ⟨rfl, ?_⟩
        rw [if_pos hz]; simp only [l1, hr, if_true]
    · refine ⟨{ h.meter with residue := q.2.2 }, (l.reprimeNotice.1.credit (s.cfg.kind c.line)
          (Credit.mk q.1 q.2.1 (r.quality == Quality.estimated) carried)).1, ?_⟩
      refine ⟨?al4, ?eq4, (fun q => by cases q), fun d' c' e' => ?_⟩
      case eq4 =>
        unfold State.handleRecord
        simp only [show (s.channels.meters[e]).handle (s.cfg.channel e) s.cfg.reprimeThreshold r = h from
            rfl, hc, hr, if_true]
        have hz' : ¬((s.cfg.channel e).convert (s.lines.lines[(s.cfg.channel e).line]).unitWeight
            h.meter.residue d).2.1 = 0 := hz
        rw [if_neg hz']
        simp [State.withBooks, State.books, Books.credit, Books.reprimeNotice, Books.saturate, Books.setLine,
            Books.line, State.withMeters, State.ledger, c, l, q]
        rfl
      · obtain ⟨rfl, rfl⟩ := Prod.mk.inj (Option.some.inj e')
        refine ⟨rfl, ?_⟩
        rw [if_neg hz]; simp only [l1, hr, if_true]; rfl
    · have hr : h.reprimed = false := by simpa using hr
      refine ⟨{ h.meter with residue := q.2.2 }, l, ?_⟩
      refine ⟨?al5, ?eq5, (fun q => by cases q), fun d' c' e' => ?_⟩
      case eq5 =>
        unfold State.handleRecord
        simp only [show (s.channels.meters[e]).handle (s.cfg.channel e) s.cfg.reprimeThreshold r = h from
            rfl, hc, hr, Bool.false_eq_true, if_false]
        have hz' : ((s.cfg.channel e).convert (s.lines.lines[(s.cfg.channel e).line]).unitWeight
            h.meter.residue d).2.1 = 0 := hz
        rw [if_pos hz', sl]
        rfl
      · obtain ⟨rfl, rfl⟩ := Prod.mk.inj (Option.some.inj e')
        refine ⟨rfl, ?_⟩
        rw [if_pos hz]; simp only [l1, hr, Bool.false_eq_true, if_false]
    · have hr : h.reprimed = false := by simpa using hr
      refine ⟨{ h.meter with residue := q.2.2 }, (l.credit (s.cfg.kind c.line)
          (Credit.mk q.1 q.2.1 (r.quality == Quality.estimated) carried)).1, ?_⟩
      refine ⟨?al6, ?eq6, (fun q => by cases q), fun d' c' e' => ?_⟩
      case eq6 =>
        unfold State.handleRecord
        simp only [show (s.channels.meters[e]).handle (s.cfg.channel e) s.cfg.reprimeThreshold r = h from
            rfl, hc, hr, Bool.false_eq_true, if_false]
        have hz' : ¬((s.cfg.channel e).convert (s.lines.lines[(s.cfg.channel e).line]).unitWeight
            h.meter.residue d).2.1 = 0 := hz
        rw [if_neg hz']
        rfl
      · obtain ⟨rfl, rfl⟩ := Prod.mk.inj (Option.some.inj e')
        refine ⟨rfl, ?_⟩
        rw [if_neg hz]; simp only [l1, hr, Bool.false_eq_true, if_false]; rfl

/-! ### The Line Unit and the Tally Engine -/

/-- The engine's service of the update in hand is left: its state, reservation, loss count and miss list. -/
def Tally.SameService (a b : Tally) : Prop :=
  b.state = a.state ∧ b.reservation = a.reservation ∧ b.losses = a.losses ∧ b.misses = a.misses

theorem Tally.SameService.refl (a : Tally) : Tally.SameService a a := ⟨rfl, rfl, rfl, rfl⟩
theorem Tally.SameService.trans {a b c : Tally} (h : Tally.SameService a b) (g : Tally.SameService b c) :
    Tally.SameService a c :=
  ⟨g.1.trans h.1, g.2.1.trans h.2.1, g.2.2.1.trans h.2.2.1, g.2.2.2.trans h.2.2.2⟩
theorem Ledger.post_service (x : Ledger) (u : Update) : Tally.SameService x.tally (x.post u).tally := by
  unfold Ledger.post Ledger.turnAway; split <;> exact ⟨rfl, rfl, rfl, rfl⟩
theorem Ledger.postAll_service (us : List Update) : ∀ x : Ledger,
    Tally.SameService x.tally (x.postAll us).tally := by
  induction us with
  | nil => intro x; exact Tally.SameService.refl _
  | cons u t ih => intro x; exact Tally.SameService.trans (Ledger.post_service x u) (ih (x.post u))
theorem Books.closeJob_service (n : Fin 16) (code : Nat) (x : Books) :
    Tally.SameService x.ledger.tally (x.closeJob n code).ledger.tally := by
  unfold Books.closeJob
  show Tally.SameService x.ledger.tally (if (x.line n).job.code = 0 then x.ledger else _).tally
  split
  · exact Tally.SameService.refl _
  · exact Ledger.post_service _ _
theorem Books.closeGroup_service (m : Image) (h : Fin 16) (we : Bool) (x : Books) :
    Tally.SameService x.ledger.tally (x.closeGroup m h we).ledger.tally :=
  Ledger.postAll_service _ _
theorem Books.event_service (m : Image) (n : Fin 16) (e : LineEvent) (x : Books) :
    Tally.SameService x.ledger.tally (x.event m n e).ledger.tally := by
  cases e with
  | jobMark code w => exact Books.closeJob_service n code x
  | lineStop => exact Tally.SameService.refl _
  | lineStart => exact Tally.SameService.refl _
theorem Books.deliver_service (m : Image) (n : Fin 16) (e : LineEvent) (x : Books) :
    Tally.SameService x.ledger.tally (x.deliver m n e).ledger.tally := by
  unfold Books.deliver; split
  · exact Tally.SameService.refl _
  · exact Books.event_service m n e x
theorem Books.foldl_service {α : Type} (f : Books → α → Books) (h : ∀ x a,
    Tally.SameService x.ledger.tally (f x a).ledger.tally) (l : List α) :
    ∀ x : Books, Tally.SameService x.ledger.tally (l.foldl f x).ledger.tally := by
  induction l with
  | nil => intro x; exact Tally.SameService.refl _
  | cons a t ih => intro x; exact Tally.SameService.trans (h x a) (ih (f x a))
theorem State.matchNotice_service (m : Image) (a : Nat) (ws : List WriteWord) (s : State) :
    Tally.SameService s.tally (s.matchNotice m a ws).tally :=
  State.matchNotice_keeps (P := fun t => Tally.SameService s.tally t.tally) (fun _ h _ => by simpa using h)
    (fun t m n e h => Tally.SameService.trans h (Books.deliver_service m n e t.books)) m a ws s
    (Tally.SameService.refl _)
theorem Books.forwardCloses_service (m : Image) (x : Books) :
    Tally.SameService x.ledger.tally (x.forwardCloses m).ledger.tally := by
  apply Books.foldl_service
  intro x i; split
  · exact Books.closeGroup_service _ _ _ _
  · exact Tally.SameService.refl _
theorem Books.forcedClose_service (o m : Image) (x : Books) :
    Tally.SameService x.ledger.tally (x.forcedClose o m).ledger.tally := by
  unfold Books.forcedClose
  exact Tally.SameService.trans (Books.foldl_service _ (fun x n => Books.closeJob_service n 0 x) _ _)
      (Books.foldl_service _ (fun x n => Books.closeGroup_service _ _ _ x) _ _)
theorem State.stepClock_service (new : Word) (s : State) : Tally.SameService s.tally (s.stepClock new).tally
    := by
  by_cases h : new = s.lines.clock
  · rw [State.stepClock, if_pos h]; exact Tally.SameService.refl _
  · rw [State.stepClock, if_neg h]
    by_cases g : s.lines.clock.toNat < new.toNat
    · simp only [g, if_true, State.latch_tally]
      have k := Books.forwardCloses_service s.cfg { s.books with lines := { s.lines with clock := new } }
      generalize Books.forwardCloses s.cfg { s.books with lines := { s.lines with clock := new } } = y at k ⊢
      exact k
    · simp only [g, if_false, State.latch_tally]
      exact Tally.SameService.refl _
theorem State.command_service (w a : Word) (s : State) : Tally.SameService s.tally (s.command w a).1.tally := by
  unfold State.command
  split
  · unfold State.closeNamed; split
    · exact Books.foldl_service (fun x h => x.closeGroup s.cfg h false)
        (fun x n => Books.closeGroup_service _ _ _ x) (maskLines a) s.books
    · exact Tally.SameService.refl _
  · have : (s.restartUnits).1.tally = s.tally := by simp [State.restartUnits]
    exact ⟨by rw [this], by rw [this], by rw [this], by rw [this]⟩
  · unfold State.reprimeEntry; split <;> [(dsimp only; split <;> exact Tally.SameService.refl _); exact
      Tally.SameService.refl _]
  · exact Tally.SameService.refl _
  · unfold State.injectFault; split <;> exact Tally.SameService.refl _
  · exact Tally.SameService.refl _
theorem State.dealWith_service (w a : Word) (s : State) : Tally.SameService s.tally (s.dealWith w a).tally := by
  unfold State.dealWith
  split
  · exact Tally.SameService.refl _
  · split <;> exact Tally.SameService.refl _
  · exact Tally.SameService.refl _
  · split
    · exact Tally.SameService.refl _
    · exact State.command_service _ _ _
theorem State.afterApply_service (s : State) : Tally.SameService s.tally s.afterApply.tally := by
  have h : ∀ u : State, Tally.SameService u.tally (if u.setup.pendingApply then
      { u with setup := { u.setup with pendingApply := false } }.startApply else u).tally := by
    intro u; split <;> exact Tally.SameService.refl _
  unfold State.afterApply
  split
  · next w arg _ =>
    exact Tally.SameService.trans (State.dealWith_service w arg { s with setup := { s.setup with waiting :=
        none } })
      (h (State.dealWith w arg { s with setup := { s.setup with waiting := none } }))
  · exact h s

/-! ### Consumer index words -/

/-- A consumer index word writes shadows of rings and the alerts alone (R115). -/
theorem State.consumerNotice_eq (a : Nat) (ws : List WriteWord) (s : State) :
    ∃ (rs : Vector Ring 16) (al : Alerts), s.consumerNotice a ws = { s with
      writer := { s.writer with rings := rs }
      alerts := al } ∧ Alerts.Grew s.alerts al ∧
    ∀ n : Fin 16, { rs[n] with shadow := (s.writer.rings[n]).shadow } = s.writer.rings[n] := by
  have one : ∀ (c : Nat × WriteWord) (u : State), ∃ (rs : Vector Ring 16) (al : Alerts),
      (match u.cfg.consumerLine c.1 with
        | some n => u.consumerWord n c.2
        | none => u) = { u with writer := { u.writer with rings := rs }, alerts := al } ∧
      Alerts.Grew u.alerts al ∧
      ∀ n : Fin 16, { rs[n] with shadow := (u.writer.rings[n]).shadow } = u.writer.rings[n] := by
    intro c u
    split
    · next n _ =>
      unfold State.consumerWord
      dsimp only
      split
      · split
        · refine ⟨_, _, rfl, Alerts.Grew.refl _, fun k => ?_⟩
          by_cases h : k = n
          · subst h; rw [set_get_self]
          · rw [set_get_other _ _ _ _ h]
        · exact ⟨_, _, rfl, Alerts.grew_latch _ _, fun _ => rfl⟩
      · exact ⟨_, _, rfl, Alerts.Grew.refl _, fun _ => rfl⟩
    · exact ⟨_, _, rfl, Alerts.Grew.refl _, fun _ => rfl⟩
  unfold State.consumerNotice
  generalize addressed a ws = l
  induction l generalizing s with
  | nil => exact ⟨_, _, rfl, Alerts.Grew.refl _, fun _ => rfl⟩
  | cons c rest ih =>
    simp only [List.foldl_cons]
    obtain ⟨rs, al, h, g, k⟩ := one c s
    obtain ⟨rs', al', h', g', k'⟩ := ih { s with writer := { s.writer with rings := rs }, alerts := al }
    refine ⟨rs', al', ?_, g.trans g', fun n => ?_⟩
    · exact (congrArg (fun v => List.foldl _ v rest) h).trans h'
    · have e := k' n
      dsimp only at e
      rw [← k n, ← e]

/-! ### The rings -/

/-- The ring of a discarded record in every field. -/
theorem Ring.unreserve_eq (r : Ring) : r.unreserve = {
    producer := r.producer, shadow := if r.shadow = r.producer + 1 then r.producer else r.shadow,
    overrun := min (r.overrun + 1) 65535, pendingLost := min (r.pendingLost + 1) 255, reserved := false,
    initOwed := r.initOwed } := by
  unfold Ring.unreserve; split <;> rfl

end Sys2Proof.Machine
end

