-- ==== Sys2Proof/Laws/Edges.lean ====
section
/-! SUPPORT. The edge bits: what a condition's edge latches, and STALE_EDGE at every step that writes the channel
table (R168). -/

namespace Sys2Proof.Machine

/-! ### The owed flag of the real-time group -/

@[simp] theorem Alerts.latch_realTime (a : Alerts) (b : AlertBit) :
    (a.latch b).owed.realTime = a.owed.realTime := by rw [Alerts.latch_eq]
@[simp] theorem Alerts.latchIf_realTime (a : Alerts) (c : Bool) (b : AlertBit) :
    (a.latchIf c b).owed.realTime = a.owed.realTime := by cases c <;> simp [Alerts.latchIf]
@[simp] theorem Alerts.report_realTime (m : Image) (c : DefectClass) (a : Alerts) :
    (a.report m c).owed.realTime = a.owed.realTime := by
  unfold Alerts.report Alerts.count
  split <;> simp
@[simp] theorem Alerts.reportAll_realTime (m : Image) (cs : List DefectClass) (a : Alerts) :
    (a.reportAll m cs).owed.realTime = a.owed.realTime := by
  unfold Alerts.reportAll
  induction cs generalizing a with
  | nil => rfl
  | cons c cs ih => rw [List.foldl_cons, ih, Alerts.report_realTime]

/-! ### Edges -/

/-- A rise latches its edge bit alone (R168). -/
theorem Alerts.has_rise (a : Alerts) (c : Condition) (x : AlertBit) :
    (a.rise c).has x = (a.has x || decide (x = c.bit)) := Alerts.has_latch _ _ _

/-- A fall latches its edge bit where its select is both (R168). -/
theorem Alerts.has_fall (m : Image) (a : Alerts) (c : Condition) (x : AlertBit) :
    (a.fall m c).has x = (a.has x || (m.selectsBoth c && decide (x = c.bit))) := Alerts.has_latchIf _ _ _ _

/-- A condition that stands as before latches nothing; an edge latches its bit (R168). -/
theorem Alerts.has_follow (m : Image) (a : Alerts) (c : Condition) (before after : Bool) (x : AlertBit) :
    (a.follow m c before after).has x =
      (a.has x || (((!before && after) || (before && !after && m.selectsBoth c)) && decide (x = c.bit))) := by
  cases before <;> cases after <;> simp [Alerts.follow, Alerts.has_rise, Alerts.has_fall]

/-- An edge makes the real-time group owed (R167, R170). -/
theorem Alerts.follow_realTime (m : Image) (a : Alerts) (c : Condition) (before after : Bool) :
    (a.follow m c before after).owed.realTime = (a.owed.realTime || (before != after)) := by
  cases before <;> cases after <;> simp [Alerts.follow, Alerts.rise, Alerts.fall, Alerts.oweRealTime]

/-- A report latches no bit but its class's own and COUNTER_FULL. -/
theorem Alerts.has_report_of_ne {m : Image} {c : DefectClass} {a : Alerts} {x : AlertBit} (h : c.bit ≠ some x)
    (g : x ≠ .counterFull) : (a.report m c).has x = a.has x := by
  rw [Alerts.has_report]; simp [h, g]

/-- Reports latch no edge bit. -/
theorem Alerts.has_reportAll_edge (m : Image) (cs : List DefectClass) (a : Alerts) (c : Condition) :
    (a.reportAll m cs).has c.bit = a.has c.bit := by
  unfold Alerts.reportAll
  induction cs generalizing a with
  | nil => rfl
  | cons d cs ih =>
    rw [List.foldl_cons, ih, Alerts.has_report_of_ne]
    · cases c <;> cases d <;> decide
    · cases c <;> decide

/-- ANY_STALE holds while some entry is STALE (R69). -/
theorem Channels.anyStale_iff (c : Channels) :
    c.anyStale = true ↔ ∃ e : Fin 256, (c.meters[e]).state = .stale := by
  simp only [Channels.anyStale, List.any_eq_true, Vector.mem_toList_iff, beq_iff_eq]
  constructor
  · rintro ⟨m, hm, h⟩
    obtain ⟨i, hi, e⟩ := Vector.getElem_of_mem hm
    exact ⟨⟨i, hi⟩, by simpa [e] using h⟩
  · rintro ⟨e, h⟩
    exact ⟨_, Vector.getElem_mem e.isLt, h⟩

/-! ### STALE_EDGE from one state to another -/

/-- STALE_EDGE is latched where ANY_STALE rises from `s` to `t`, and where it falls under a select of both; either
way the real-time group is owed (R168, R170). -/
structure State.EdgeFollows (both : Bool) (s t : State) : Prop where
  edge : t.alerts.has .staleEdge = true ↔ s.alerts.has .staleEdge = true ∨
    (s.channels.anyStale = false ∧ t.channels.anyStale = true) ∨
    (s.channels.anyStale = true ∧ t.channels.anyStale = false ∧ both = true)
  owed : s.channels.anyStale ≠ t.channels.anyStale → t.alerts.owed.realTime = true

/-- A new channel table latches STALE_EDGE by the edge that it makes. -/
theorem State.edgeFollows_withMeters (ms : Vector Meter 256) (s : State) :
    State.EdgeFollows (s.cfg.selectsBoth .anyStale) s (s.withMeters ms) := by
  constructor
  · show (Alerts.follow _ _ _ _ _).has _ = true ↔ _
    rw [Alerts.has_follow]
    simp only [Condition.bit, decide_true, Bool.and_true, Bool.or_eq_true, Bool.and_eq_true, Bool.not_eq_true',
      and_assoc]
    rfl
  · intro h
    show (Alerts.follow _ _ _ _ _).owed.realTime = true
    rw [Alerts.follow_realTime, Bool.or_eq_true]
    exact .inr (bne_iff_ne.2 h)

/-- Steps before and after that leave the table and the bit leave the edge as it is. -/
theorem State.EdgeFollows.congr {both : Bool} {s t s' t' : State} (h : State.EdgeFollows both s t)
    (hs : s'.channels.meters = s.channels.meters) (ht : t'.channels.meters = t.channels.meters)
    (bs : s'.alerts.has .staleEdge = s.alerts.has .staleEdge)
    (bt : t'.alerts.has .staleEdge = t.alerts.has .staleEdge)
    (ot : t.alerts.owed.realTime = true → t'.alerts.owed.realTime = true) : State.EdgeFollows both s' t' := by
  have es : s'.channels.anyStale = s.channels.anyStale := by unfold Channels.anyStale; rw [hs]
  have et : t'.channels.anyStale = t.channels.anyStale := by unfold Channels.anyStale; rw [ht]
  constructor
  · rw [bs, bt, es, et]; exact h.edge
  · rw [es, et]; exact fun k => ot (h.owed k)

/-- The end of a step latches nothing. -/
theorem State.requestMirror_has (s : State) (b : AlertBit) : s.requestMirror.alerts.has b = s.alerts.has b := by
  unfold Alerts.has
  rw [requestMirror_latched]

/-- The end of a step leaves the edge as it is. -/
theorem State.EdgeFollows.request {both : Bool} {s t : State} (h : State.EdgeFollows both s t) :
    State.EdgeFollows both s t.requestMirror :=
  h.congr rfl rfl rfl (State.requestMirror_has t _) (fun k => by rw [requestMirror_owed]; exact k)

end Sys2Proof.Machine
end

