-- ==== Sys2Proof/Laws/Effects.lean ====
section
/-! SUPPORT. Everything a command can do, said once: the list of the effects with the conditions under which they
arise; and how a property is shown to be kept by every step. -/

namespace Sys2Proof.Machine

/-- The effects of the commands, before the mirror request that ends a step: `Effect s u` says that some command
takes `s` to `u`. -/
inductive Effect (s : State) : State → Prop where
  | reset (inReset : Bool) (base : BitVec 8) (h : inReset = true → base = s.setup.base) :
      Effect s (State.hardReset s.pending inReset s.pass.port.orphaned base s.tally.draws)
  | tick (h : s.inReset = false) : Effect s s.tick
  | advance (h : s.expiryDue = false) : Effect s s.advance
  | assemblyTimeout (i : Fin 4) : Effect s (s.withDesk ((s.desk.emptyBuffer i).report s.cfg .stray))
  | staleExpiry (e : Fin 256) : Effect s (s.expireStale e)
  | changeoverExpiry (n : Fin 16) : Effect s { s with lines := { s.lines with
      lines := s.lines.lines.set n { s.lines.lines[n] with state := .running, timer := none } } }
  | boundaryExpiry : Effect s s.closeDue
  | reportExpiry : Effect s s.expireReport
  | spill : Effect s s.enterSpill
  | backoffExpiry (h : s.tally.state = .backoff) :
      Effect s { s with tally := { s.tally with state := .readWait, backoff := none } }
  | upstreamWrite (a : Nat) (ws : List WriteWord) : Effect s (s.presentWrite a ws)
  | upstreamRead (a : Nat) (es : List (BitVec 4)) : Effect s (s.presentRead a es)
  | holdRelease : Effect s s.releaseHold
  | readRelease : Effect s s.releaseRead
  | arbitrate : Effect s s.arbitrate
  | capture : Effect s s.capture
  | clockWord : Effect s s.takeClockWord
  | generation : Effect s s.takeGeneration
  | consumer : Effect s s.takeConsumer
  | observation : Effect s s.takeObservation
  | command : Effect s s.takeCommand
  | passthrough (answer : PassAnswer) : Effect s (s.answerPassthrough answer)
  | recordTake : Effect s s.takeRecord
  | handOver (h : s.writer.queue.length < 16) : Effect s s.handOverHead
  | missHandOver (h : s.writer.queue.length < 16) : Effect s s.handOverMiss
  | takeIntoHand (h : s.writer.step = none) (hi : s.writer.initOwed = false) : Effect s s.takeHead
  | recordAnswer (answer : Answer) (h : s.pass.port.isRecordWrite = true) :
      Effect s (s.answerRecordWrite answer)
  | indexAnswer (answer : Answer) (h : s.pass.port.isIndexWrite = true) :
      Effect s (s.answerIndexWrite answer)
  | initialisingAnswer (answer : Answer) : Effect s (s.answerInitialisingWrite answer)
  | updateIntoHand (h : s.tally.state = .idle) :
      Effect s { s with tally := { s.tally with losses := 0, lockedLoss := false, state := .readWait } }
  | reserveAnswer (answer : ReadAnswer 8) : Effect s (s.takeReserveRead answer)
  | conditionalAnswer (answer : Answer) : Effect s (s.takeConditionalWrite answer)
  | fetchAnswer (answer : ReadAnswer 16) (h : s.setup.part = .fetching) : Effect s (s.answerFetch answer)
  | fetchEnd (h : s.setup.part = .fetching) : Effect s s.completeFetch
  | mirrorAnswer (answer : Answer) : Effect s (s.answerMirror answer)
  | validated (h : s.setup.part = .applying .validate) : Effect s s.completeValidation
  | quiesced (h : s.setup.part = .applying .quiesce) : Effect s s.forceClose
  | installed (h : s.setup.part = .applying .drain) (hr : s.ringsClear = true) : Effect s s.install
  | portFreed : Effect s s.freePort

/-- A command that answers a next state leaves the state or has one of the effects, with the mirror request after
it. -/
theorem exec_effect {c : Instr} {s t : State} (e : exec c s = .next t) :
    t = s ∨ ∃ u, Effect s u ∧ t = u.requestMirror := by
  have key : ∀ {can : Bool} {f : State → State}, stepWhen can f s = .next t →
      (can = true → Effect s (f s)) → t = s ∨ ∃ u, Effect s u ∧ t = u.requestMirror := by
    intro can f e k
    rcases stepWhen_next e with ⟨_, h⟩ | ⟨h, h'⟩
    · exact .inl h
    · exact .inr ⟨_, k h, h'⟩
  cases c
  case resetAssert =>
    simp only [exec, execResetAssert] at e
    injection e with e
    exact .inr ⟨_, .reset true s.setup.base (fun _ => rfl), e.symm⟩
  case resetRelease straps =>
    simp only [exec, execResetRelease] at e
    exact key e (fun _ => .reset false straps (fun h => by cases h))
  case upstreamWrite a ws =>
    simp only [exec, execUpstreamWrite] at e
    split at e
    · exact key e (fun _ => .upstreamWrite _ _)
    · cases e
  case upstreamRead a es =>
    simp only [exec, execUpstreamRead] at e
    split at e
    · exact key e (fun _ => .upstreamRead _ _)
    · cases e
  case tickPulse => exact key e (fun h => .tick (by simpa using h))
  case clockAdvance =>
    exact key e (fun h => .advance (by simp only [Bool.and_eq_true, Bool.not_eq_true'] at h; exact h.2))
  case assemblyTimeout i => simp only [exec, execAssemblyTimeout] at e; exact key e (fun _ => .assemblyTimeout i)
  case staleExpiry n => exact key e (fun _ => .staleExpiry n)
  case changeoverTimerExpiry n =>
    simp only [exec, execChangeoverTimerExpiry] at e; exact key e (fun _ => .changeoverExpiry n)
  case binBoundaryExpiry => exact key e (fun _ => .boundaryExpiry)
  case reportTimerExpiry => exact key e (fun _ => .reportExpiry)
  case holdLimitExpiry => exact key e (fun _ => .spill)
  case backoffExpiry =>
    simp only [exec, execBackoffExpiry] at e
    exact key e (fun h => .backoffExpiry (by simp only [Bool.and_eq_true, beq_iff_eq] at h; exact h.1.2))
  case holdRelease => exact key e (fun _ => .holdRelease)
  case readHoldRelease => exact key e (fun _ => .readRelease)
  case arbiterDecision => exact key e (fun _ => .arbitrate)
  case setupCapture => exact key e (fun _ => .capture)
  case clockWordWrite => exact key e (fun _ => .clockWord)
  case generationWrite => exact key e (fun _ => .generation)
  case consumerIndexWrite => exact key e (fun _ => .consumer)
  case latchedAlertRead => exact key e (fun _ => .observation)
  case noCommand => exact key e (fun _ => .command)
  case closeBins => exact key e (fun _ => .command)
  case restart => exact key e (fun _ => .command)
  case reprime => exact key e (fun _ => .command)
  case transferCounters => exact key e (fun _ => .command)
  case injectCheckFault => exact key e (fun _ => .command)
  case undefinedCommand => exact key e (fun _ => .command)
  case passthroughResponse a => exact key e (fun _ => .passthrough a)
  case recordTake => exact key e (fun _ => .recordTake)
  case handOver =>
    exact key e (fun h => .handOver (by simp only [Bool.and_eq_true, decide_eq_true_eq] at h; exact h.2))
  case tallyMissHandOver =>
    exact key e (fun h => .missHandOver (by simp only [Bool.and_eq_true, decide_eq_true_eq] at h; exact h.2))
  case takeIntoHand =>
    refine key e (fun h => ?_)
    simp only [Bool.and_eq_true, Bool.not_eq_true', Option.isNone_iff_eq_none] at h
    exact .takeIntoHand h.1.1.1.2 h.1.2
  case recordWriteResponse a =>
    exact key e (fun h => .recordAnswer a (by simp only [Bool.and_eq_true] at h; exact h.2))
  case indexWriteResponse a =>
    exact key e (fun h => .indexAnswer a (by simp only [Bool.and_eq_true] at h; exact h.2))
  case initialisingWriteResponse a => exact key e (fun _ => .initialisingAnswer a)
  case updateIntoHand =>
    simp only [exec, execUpdateIntoHand] at e
    exact key e (fun h => .updateIntoHand (by simp only [Bool.and_eq_true, beq_iff_eq] at h; exact h.1.1.2))
  case reserveReadResponse a => exact key e (fun _ => .reserveAnswer a)
  case conditionalWriteResponse a => exact key e (fun _ => .conditionalAnswer a)
  case fetchReadResponse a =>
    exact key e (fun h => .fetchAnswer a (by simp only [Bool.and_eq_true, beq_iff_eq] at h; exact h.1.2))
  case fetchValidationCompletion =>
    exact key e (fun h => .fetchEnd (by simp only [Bool.and_eq_true, beq_iff_eq] at h; exact h.1.1.2))
  case mirrorWriteResponse a => exact key e (fun _ => .mirrorAnswer a)
  case validationCompletion =>
    exact key e (fun h => .validated (by simp only [Bool.and_eq_true, beq_iff_eq] at h; exact h.1.2))
  case quiesceMet =>
    exact key e (fun h => .quiesced (by simp only [Bool.and_eq_true, beq_iff_eq] at h; exact h.1.1.2))
  case installation =>
    refine key e (fun h => ?_)
    simp only [Bool.and_eq_true, beq_iff_eq] at h
    exact .installed h.1.1.2 h.2
  case discardedDownstreamResponse => exact key e (fun _ => .portFreed)

/-- How a property is shown to be kept by every step: by the fine interval, the queue, the mirror request and each
effect. -/
theorem kept_by_every_step {P : State → Prop} (queue : ∀ s l, P s → P { s with pending := l })
    (fine : ∀ s, P s → P s.fineInterval) (mirror : ∀ s, P s → P s.requestMirror)
    (effect : ∀ s u, P s → Effect s u → P u) : KeptByEveryStep P := by
  intro s t hs e
  unfold step at e
  split at e
  · injection e with e; subst e; exact fine s hs
  · next c rest h =>
    rcases exec_effect e with rfl | ⟨u, hu, rfl⟩
    · exact queue s rest hs
    · exact mirror u (effect _ u (queue s rest hs) hu)

end Sys2Proof.Machine
end

