-- ==== Sys2Proof/Laws/Memory.lean ====
section
/-! SUPPORT. The images of the setup block: what a read after a write gives, and that every operation keeps the
canonical form. -/

namespace Sys2Proof.Machine

/-! ### Reading -/

/-- An image that lists nothing below a number reads zero there. -/
theorem Image.get_of_rising {m : Image} {i lo : Nat} (h : m.risingFrom lo = true) (hlt : i < lo) : m.get i = 0 := by
  induction m generalizing lo with
  | nil => rfl
  | cons c rest ih =>
    obtain ⟨j, v⟩ := c
    simp only [Image.risingFrom, Bool.and_eq_true, decide_eq_true_eq] at h
    simp only [Image.get, if_neg (show i ≠ j by omega)]
    exact ih h.2 (by omega)

theorem Image.get_erase_self (m : Image) (i lo : Nat) (h : m.risingFrom lo = true) : (m.erase i).get i = 0 := by
  induction m generalizing lo with
  | nil => rfl
  | cons c rest ih =>
    obtain ⟨j, w⟩ := c
    simp only [Image.risingFrom, Bool.and_eq_true, decide_eq_true_eq] at h
    by_cases hij : i = j
    · subst hij
      simp only [Image.erase, if_true]
      exact Image.get_of_rising h.2 (by omega)
    · simp only [Image.erase, if_neg hij, Image.get]
      exact ih (j + 1) h.2

theorem Image.get_erase_other (m : Image) (i k : Nat) (h : k ≠ i) : (m.erase i).get k = m.get k := by
  induction m with
  | nil => rfl
  | cons c rest ih =>
    obtain ⟨j, w⟩ := c
    by_cases hij : i = j
    · subst hij
      simp only [Image.erase, if_true, Image.get, if_neg h]
    · simp only [Image.erase, if_neg hij, Image.get, ih]

theorem Image.get_insert_self (m : Image) (i : Nat) (w : Word) : (m.insert i w).get i = w := by
  induction m with
  | nil => simp [Image.insert, Image.get]
  | cons c rest ih =>
    obtain ⟨j, v⟩ := c
    simp only [Image.insert]
    by_cases h1 : i < j
    · simp [h1, Image.get]
    · by_cases h2 : i = j
      · simp [h2, Image.get]
      · simp only [h1, h2, if_false, Image.get, ih]

theorem Image.get_insert_other (m : Image) (i k : Nat) (w : Word) (h : k ≠ i) :
    (m.insert i w).get k = m.get k := by
  induction m with
  | nil => simp [Image.insert, Image.get, h]
  | cons c rest ih =>
    obtain ⟨j, v⟩ := c
    simp only [Image.insert]
    by_cases h1 : i < j
    · simp only [h1, if_true, Image.get, if_neg h]
    · by_cases h2 : i = j
      · subst h2
        simp only [h1, if_false, if_true, Image.get, if_neg h]
      · simp only [h1, h2, if_false, Image.get, ih]

/-- A word reads as what was last written to it. -/
theorem Image.get_set_self (m : Image) (i : Nat) (w : Word) (h : m.wf = true) : (m.set i w).get i = w := by
  unfold Image.set
  split
  · next hw => rw [Image.get_erase_self m i 0 h, hw]
  · exact Image.get_insert_self m i w

/-- A write leaves every other word. -/
theorem Image.get_set_other (m : Image) (i k : Nat) (w : Word) (h : k ≠ i) : (m.set i w).get k = m.get k := by
  unfold Image.set
  split
  · exact Image.get_erase_other m i k h
  · exact Image.get_insert_other m i k w h

/-! ### The canonical form -/

theorem Image.risingFrom_mono (m : Image) (lo lo' : Nat) (h : m.risingFrom lo = true) (hle : lo' ≤ lo) :
    m.risingFrom lo' = true := by
  cases m with
  | nil => rfl
  | cons c rest =>
    obtain ⟨j, w⟩ := c
    simp only [Image.risingFrom, Bool.and_eq_true, decide_eq_true_eq] at h ⊢
    exact ⟨⟨by omega, h.1.2⟩, h.2⟩

theorem Image.risingFrom_erase (m : Image) (i lo : Nat) (h : m.risingFrom lo = true) :
    (m.erase i).risingFrom lo = true := by
  induction m generalizing lo with
  | nil => rfl
  | cons c rest ih =>
    obtain ⟨j, w⟩ := c
    simp only [Image.risingFrom, Bool.and_eq_true, decide_eq_true_eq] at h
    by_cases hij : i = j
    · simp only [Image.erase, if_pos hij]
      exact Image.risingFrom_mono rest (j + 1) lo h.2 (by omega)
    · simp only [Image.erase, if_neg hij, Image.risingFrom, Bool.and_eq_true, decide_eq_true_eq]
      exact ⟨h.1, ih (j + 1) h.2⟩

theorem Image.risingFrom_insert (m : Image) (i lo : Nat) (w : Word) (hw : w ≠ 0) (hi : lo ≤ i)
    (h : m.risingFrom lo = true) : (m.insert i w).risingFrom lo = true := by
  induction m generalizing lo with
  | nil => simpa [Image.insert, Image.risingFrom, hi] using hw
  | cons c rest ih =>
    obtain ⟨j, v⟩ := c
    simp only [Image.risingFrom, Bool.and_eq_true, decide_eq_true_eq] at h
    simp only [Image.insert]
    by_cases h1 : i < j
    · simp only [if_pos h1, Image.risingFrom, Bool.and_eq_true, decide_eq_true_eq]
      exact ⟨⟨hi, hw⟩, ⟨⟨by omega, h.1.2⟩, h.2⟩⟩
    · by_cases h2 : i = j
      · simp only [if_neg h1, if_pos h2, Image.risingFrom, Bool.and_eq_true, decide_eq_true_eq]
        exact ⟨⟨hi, hw⟩, by subst h2; exact h.2⟩
      · simp only [if_neg h1, if_neg h2, Image.risingFrom, Bool.and_eq_true, decide_eq_true_eq]
        exact ⟨h.1, ih (j + 1) (by omega) h.2⟩

/-- A write keeps the canonical form. -/
theorem Image.wf_set (m : Image) (i : Nat) (w : Word) (h : m.wf = true) : (m.set i w).wf = true := by
  unfold Image.set
  split
  · exact Image.risingFrom_erase m i 0 h
  · next hw => exact Image.risingFrom_insert m i 0 w hw (Nat.zero_le i) h

theorem Image.risingFrom_below (m : Image) (n lo : Nat) (h : m.risingFrom lo = true) :
    (m.below n).risingFrom lo = true := by
  induction m generalizing lo with
  | nil => rfl
  | cons c rest ih =>
    obtain ⟨j, w⟩ := c
    simp only [Image.risingFrom, Bool.and_eq_true, decide_eq_true_eq] at h
    unfold Image.below
    by_cases hj : j < n
    · rw [List.filter_cons_of_pos (by simp [hj])]
      simp only [Image.risingFrom, Bool.and_eq_true, decide_eq_true_eq]
      exact ⟨h.1, ih (j + 1) h.2⟩
    · rw [List.filter_cons_of_neg (by simp [hj])]
      exact Image.risingFrom_mono _ (j + 1) lo (ih (j + 1) h.2) (by omega)

/-- The copy of words 0 to n − 1 is in canonical form (R149). -/
theorem Image.wf_below (m : Image) (n : Nat) (h : m.wf = true) : (m.below n).wf = true :=
  Image.risingFrom_below m n 0 h

/-- A merge of enabled bytes keeps the canonical form (R144). -/
theorem Image.wf_merge (m : Image) (i : Nat) (w : WriteWord) (h : m.wf = true) : (m.merge i w).wf = true :=
  Image.wf_set m i _ h

/-- A fetch burst keeps the canonical form (R146). -/
theorem Image.wf_fill (m : Image) (first : Nat) (ws : List Word) (h : m.wf = true) :
    (m.fill first ws).wf = true := by
  unfold Image.fill
  generalize ws.zipIdx first = l
  induction l generalizing m with
  | nil => exact h
  | cons c rest ih => exact ih (m.set c.2 c.1) (Image.wf_set m c.2 c.1 h)

/-- The capture of a notice keeps the canonical form (R144). -/
theorem Setup.wf_capture (u : Setup) (address : Nat) (ws : List WriteWord) (h : u.shadow.wf = true) :
    (u.capture address ws).wf = true := by
  unfold Setup.capture
  generalize addressed address ws = l
  generalize u.shadow = m at h ⊢
  induction l generalizing m with
  | nil => exact h
  | cons c rest ih =>
    simp only [List.foldl_cons]
    apply ih
    split
    · exact Image.wf_merge m _ c.2 h
    · exact h

/-- The image of reset is in canonical form: it lists nothing (R164). -/
theorem State.reset_shadow_wf : State.reset.setup.shadow.wf = true := rfl

end Sys2Proof.Machine
end

