-- ==== Sys2Proof/Laws/Mirror.lean ====
section
/-! SUPPORT. The mirror write in hand: no command but RESET and the answer to the mirror write touches it before
the request that ends its step. -/

namespace Sys2Proof.Machine

/-! ### The Alert Unit's own operations -/

@[simp] theorem Alerts.report_mirror (m : Image) (c : DefectClass) (a : Alerts) :
    (a.report m c).mirror = a.mirror := by
  have h := congrArg Alerts.mirror (Alerts.report_frame m c a)
  exact h
@[simp] theorem Alerts.reportAll_mirror (m : Image) (cs : List DefectClass) (a : Alerts) :
    (a.reportAll m cs).mirror = a.mirror := by
  unfold Alerts.reportAll
  induction cs generalizing a with
  | nil => rfl
  | cons c cs ih => rw [List.foldl_cons, ih, Alerts.report_mirror]
@[simp] theorem Alerts.rise_mirror (c : Condition) (a : Alerts) : (a.rise c).mirror = a.mirror :=
  (Alerts.grew_rise a c).mirror
@[simp] theorem Alerts.fall_mirror (m : Image) (c : Condition) (a : Alerts) : (a.fall m c).mirror = a.mirror :=
  (Alerts.grew_fall m a c).mirror
@[simp] theorem Alerts.follow_mirror (m : Image) (c : Condition) (x y : Bool) (a : Alerts) :
    (a.follow m c x y).mirror = a.mirror := (Alerts.grew_follow m a c x y).mirror
@[simp] theorem Alerts.giveResult_mirror (w : Word) (r : CommandOutcome) (a : Alerts) :
    (a.giveResult w r).mirror = a.mirror := by rw [Alerts.giveResult_eq]
@[simp] theorem Alerts.clearRead_mirror (w : Word) (a : Alerts) : (a.clearRead w).mirror = a.mirror := by
  unfold Alerts.clearRead; dsimp only; split <;> rfl

/-! ### The Tally Engine and the Line Unit -/

@[simp] theorem Ledger.turnAway_mirror (r : LostReason) (u : Update) (x : Ledger) :
    (x.turnAway r u).alerts.mirror = x.alerts.mirror := Alerts.latch_mirror _ _
@[simp] theorem Ledger.post_mirror (x : Ledger) (u : Update) : (x.post u).alerts.mirror = x.alerts.mirror := by
  unfold Ledger.post; split <;> simp
@[simp] theorem Ledger.postAll_mirror (us : List Update) (x : Ledger) :
    (x.postAll us).alerts.mirror = x.alerts.mirror := by
  unfold Ledger.postAll
  induction us generalizing x with
  | nil => rfl
  | cons u us ih => rw [List.foldl_cons, ih, Ledger.post_mirror]
@[simp] theorem Ledger.miss_mirror (r : MissReason) (l : Bool) (u : Update) (x : Ledger) :
    (x.miss r l u).alerts.mirror = x.alerts.mirror := by
  unfold Ledger.miss; split <;> [simp; (split <;> simp)]
@[simp] theorem Ledger.sendToMissList_mirror (r : MissReason) (l : Bool) (x : Ledger) :
    (x.sendToMissList r l).alerts.mirror = x.alerts.mirror := by
  unfold Ledger.sendToMissList; split <;> simp
@[simp] theorem Ledger.loss_mirror (m : Image) (l : Bool) (x : Ledger) :
    (x.loss m l).alerts.mirror = x.alerts.mirror := by
  unfold Ledger.loss; dsimp only; split <;> simp
@[simp] theorem Ledger.fail_mirror (r : MissReason) (x : Ledger) :
    (x.fail r).alerts.mirror = x.alerts.mirror := by simp [Ledger.fail]

@[simp] theorem Books.saturate_mirror (b : Bool) (x : Books) :
    (x.saturate b).ledger.alerts.mirror = x.ledger.alerts.mirror := Alerts.latchIf_mirror _ _ _
@[simp] theorem Books.credit_mirror (m : Image) (n : Fin 16) (c : Credit) (x : Books) :
    (x.credit m n c).ledger.alerts.mirror = x.ledger.alerts.mirror := Alerts.latchIf_mirror _ _ _
@[simp] theorem Books.reprimeNotice_mirror (n : Fin 16) (x : Books) :
    (x.reprimeNotice n).ledger.alerts.mirror = x.ledger.alerts.mirror := Alerts.latchIf_mirror _ _ _
@[simp] theorem Books.closeJob_mirror (n : Fin 16) (code : Nat) (x : Books) :
    (x.closeJob n code).ledger.alerts.mirror = x.ledger.alerts.mirror := by
  refine (Books.saturate_mirror _ _).trans ?_
  dsimp only; split <;> simp
@[simp] theorem Books.closeGroup_mirror (m : Image) (h : Fin 16) (we : Bool) (x : Books) :
    (x.closeGroup m h we).ledger.alerts.mirror = x.ledger.alerts.mirror :=
  (Books.saturate_mirror _ _).trans (Ledger.postAll_mirror _ _)
@[simp] theorem Books.deliver_mirror (m : Image) (n : Fin 16) (e : LineEvent) (x : Books) :
    (x.deliver m n e).ledger.alerts.mirror = x.ledger.alerts.mirror := by
  unfold Books.deliver; split
  · simp
  · cases e
    · exact Books.closeJob_mirror _ _ _
    · rfl
    · rfl

/-- What each step of a fold keeps of the mirror, the fold keeps. -/
theorem Books.foldl_mirror {α : Type} (f : Books → α → Books)
    (h : ∀ x a, (f x a).ledger.alerts.mirror = x.ledger.alerts.mirror) (l : List α) (x : Books) :
    (l.foldl f x).ledger.alerts.mirror = x.ledger.alerts.mirror := by
  induction l generalizing x with
  | nil => rfl
  | cons a l ih => rw [List.foldl_cons, ih, h]
@[simp] theorem Books.forwardCloses_mirror (m : Image) (x : Books) :
    (x.forwardCloses m).ledger.alerts.mirror = x.ledger.alerts.mirror := by
  unfold Books.forwardCloses
  apply Books.foldl_mirror
  intro x h
  split <;> simp
@[simp] theorem Books.forcedClose_mirror (old new : Image) (x : Books) :
    (x.forcedClose old new).ledger.alerts.mirror = x.ledger.alerts.mirror := by
  unfold Books.forcedClose
  dsimp only
  rw [Books.foldl_mirror _ (fun x h => Books.closeGroup_mirror _ _ _ _),
    Books.foldl_mirror _ (fun x h => Books.closeJob_mirror _ _ _)]

/-! ### The Intake Unit -/

@[simp] theorem Desk.report_mirror (m : Image) (c : DefectClass) (x : Desk) :
    (x.report m c).alerts.mirror = x.alerts.mirror := Alerts.report_mirror _ _ _
@[simp] theorem Desk.complete_mirror (m : Image) (i : Fin 4) (ws : List Word) (x : Desk) :
    (x.complete m i ws).alerts.mirror = x.alerts.mirror := by
  unfold Desk.complete Desk.enqueue
  split
  · exact Desk.report_mirror _ _ _
  · split
    · split
      · split <;> simp
      · simp
    · simp
@[simp] theorem Desk.start_mirror (m : Image) (i : Fin 4) (a len : Nat) (ws : List WriteWord) (x : Desk) :
    (x.start m i a len ws).1.alerts.mirror = x.alerts.mirror := by
  unfold Desk.start
  split
  · simp
  · split
    · simp
    · split <;> [simp; rfl]
@[simp] theorem Desk.scan_mirror (m : Image) (i : Fin 4) (fuel : Nat) : ∀ (a : Nat) (ws : List WriteWord) (x : Desk),
    (x.scan m i fuel a ws).alerts.mirror = x.alerts.mirror := by
  induction fuel with
  | zero => exact fun _ _ _ => rfl
  | succ k ih =>
    intro a ws x
    cases ws with
    | nil => rfl
    | cons w ws =>
      unfold Desk.scan
      split
      · dsimp only; split <;> simp [ih]
      · split <;> simp
@[simp] theorem Desk.burst_mirror (m : Image) (i : Fin 4) (a : Nat) (ws : List WriteWord) (x : Desk) :
    (x.burst m i a ws).alerts.mirror = x.alerts.mirror := by
  have fresh : ∀ x : Desk, (match ws with
      | [] => x
      | w :: _ => if (headerLength w).isSome then x.scan m i 16 a ws else x.report m .stray).alerts.mirror =
      x.alerts.mirror := by
    intro x; split <;> [rfl; (split <;> simp)]
  unfold Desk.burst
  dsimp only
  split
  · split
    · unfold Desk.continue
      dsimp only
      split
      · exact Desk.report_mirror _ _ _
      · split
        · exact (Desk.scan_mirror _ _ _ _ _ _).trans (Desk.complete_mirror _ _ _ _)
        · rfl
    · split
      · exact (fresh _).trans (Desk.report_mirror _ _ _)
      · simp
  · exact fresh x
@[simp] theorem Desk.notice_mirror (m : Image) (spill : Bool) (a : Nat) (ws : List WriteWord) (x : Desk) :
    (x.notice m spill a ws).alerts.mirror = x.alerts.mirror := by
  unfold Desk.notice; split <;> [rfl; (split <;> simp)]
@[simp] theorem Desk.abandonAll_mirror (m : Image) (x : Desk) :
    (x.abandonAll m).alerts.mirror = x.alerts.mirror := by
  unfold Desk.abandonAll
  generalize List.finRange 4 = l
  induction l generalizing x with
  | nil => rfl
  | cons i l ih =>
    rw [List.foldl_cons, ih]
    split <;> [exact Desk.report_mirror _ _ _; rfl]

/-! ### The steps of the memory path -/

@[simp] theorem State.acceptWrite_mirror (a : Nat) (ws : List WriteWord) (s : State) :
    (s.acceptWrite a ws).alerts.mirror = s.alerts.mirror := by
  unfold State.acceptWrite; split <;> [(split <;> simp); rfl]
theorem State.presentWrite_mirror (a : Nat) (ws : List WriteWord) (s : State) :
    (s.presentWrite a ws).alerts.mirror = s.alerts.mirror := by
  unfold State.presentWrite; split <;> [rfl; (split <;> simp [State.enterHold])]
theorem State.presentRead_mirror (a : Nat) (es : List (BitVec 4)) (s : State) :
    (s.presentRead a es).alerts.mirror = s.alerts.mirror := by
  unfold State.presentRead; split <;> [rfl; (split <;> rfl)]
theorem State.releaseHold_mirror (s : State) : s.releaseHold.alerts.mirror = s.alerts.mirror := by
  unfold State.releaseHold; split <;> simp [State.leaveHold]
theorem State.releaseRead_mirror (s : State) : s.releaseRead.alerts.mirror = s.alerts.mirror := by
  unfold State.releaseRead; split <;> rfl
theorem State.enterSpill_mirror (s : State) : s.enterSpill.alerts.mirror = s.alerts.mirror := by
  unfold State.enterSpill; split
  · rfl
  · refine (State.acceptWrite_mirror _ _ _).trans ((Desk.abandonAll_mirror _ _).trans ?_)
    simp [State.desk, State.leaveHold]

@[simp] theorem State.handOverHead_mirror (s : State) : s.handOverHead.alerts.mirror = s.alerts.mirror := by
  unfold State.handOverHead; split <;> [rfl; (dsimp only; split <;> simp)]
@[simp] theorem State.matchNotice_mirror (m : Image) (a : Nat) (ws : List WriteWord) (s : State) :
    (s.matchNotice m a ws).alerts.mirror = s.alerts.mirror :=
  State.matchNotice_keeps (P := fun t => t.alerts.mirror = s.alerts.mirror)
    (fun t h _ => (State.handOverHead_mirror t).trans h)
    (fun t m n e h => (Books.deliver_mirror m n e t.books).trans h) m a ws s rfl
@[simp] theorem State.writeNotice_mirror (a : Nat) (ws : List WriteWord) (s : State) :
    (s.writeNotice a ws).alerts.mirror = s.alerts.mirror := by
  cases h : s.setup.part.working
  · rw [State.writeNotice_resting a ws s h]; rfl
  · obtain ⟨x, hx, e⟩ := State.writeNotice_working a ws s h
    rw [e, hx]
    exact (State.matchNotice_mirror _ _ _ _).trans (Desk.notice_mirror _ _ _ _ _)
@[simp] theorem State.grant_mirror (c : Choice) (s : State) : (s.grant c).alerts.mirror = s.alerts.mirror := by
  cases c
  · show s.grantPassthrough.alerts.mirror = _
    unfold State.grantPassthrough; split <;> [exact State.writeNotice_mirror _ _ _; rfl; rfl]
  · rfl
  · rfl
  · show (State.grantTally _ s).alerts.mirror = _
    unfold State.grantTally; split <;> [rfl; (dsimp only; split <;> rfl)]
  · rfl
theorem State.arbitrate_mirror (s : State) : s.arbitrate.alerts.mirror = s.alerts.mirror := by
  have key : ∀ (o : Option Client) (t : State), (t.decideAmong o).alerts.mirror = t.alerts.mirror := by
    intro o t; unfold State.decideAmong; split <;> [exact State.grant_mirror _ _; rfl]
  unfold State.arbitrate; split
  · exact (key _ _).trans (Ledger.loss_mirror _ _ _)
  · exact key _ _

/-! ### The other units' steps -/

theorem State.advance_mirror (s : State) : s.advance.alerts.mirror = s.alerts.mirror := Alerts.latchIf_mirror _ _ _
@[simp] theorem State.withMeters_mirror (ms : Vector Meter 256) (s : State) :
    (s.withMeters ms).alerts.mirror = s.alerts.mirror := Alerts.follow_mirror _ _ _ _ _
theorem State.expireStale_mirror (e : Fin 256) (s : State) :
    (s.expireStale e).alerts.mirror = s.alerts.mirror :=
  (Alerts.latchIf_mirror _ _ _).trans (State.withMeters_mirror _ s)
theorem State.closeDue_mirror (s : State) : s.closeDue.alerts.mirror = s.alerts.mirror := by
  unfold State.closeDue; split <;> [exact Books.closeGroup_mirror _ _ _ _; rfl]
theorem State.takeClockWord_mirror (s : State) : s.takeClockWord.alerts.mirror = s.alerts.mirror := by
  unfold State.takeClockWord State.stepClock
  split
  · rfl
  · split
    · rfl
    · refine (Alerts.latch_mirror _ _).trans ?_
      show (ite _ _ _ : Books).ledger.alerts.mirror = _
      split
      · exact Books.forwardCloses_mirror _ _
      · rfl
theorem State.takeGeneration_mirror (s : State) : s.takeGeneration.alerts.mirror = s.alerts.mirror := by
  unfold State.takeGeneration State.testGeneration
  split
  · rfl
  · split <;> [rfl; rfl; (split <;> rfl); rfl]
theorem State.takeConsumer_mirror (s : State) : s.takeConsumer.alerts.mirror = s.alerts.mirror := by
  unfold State.takeConsumer State.consumerNotice
  split
  · rfl
  · next n _ =>
    have key : ∀ (l : List (Nat × WriteWord)) (t : State), (l.foldl (fun s c =>
        match s.cfg.consumerLine c.1 with
        | some n => s.consumerWord n c.2
        | none => s) t).alerts.mirror = t.alerts.mirror := by
      intro l
      induction l with
      | nil => exact fun _ => rfl
      | cons c l ih =>
        intro t
        rw [List.foldl_cons, ih]
        split
        · unfold State.consumerWord
          dsimp only
          split <;> [(split <;> [rfl; exact Alerts.latch_mirror _ _]); rfl]
        · rfl
    exact key _ _
theorem State.takeObservation_mirror (s : State) : s.takeObservation.alerts.mirror = s.alerts.mirror := by
  unfold State.takeObservation
  split <;> [rfl; (dsimp only; split <;> [rfl; exact Alerts.clearRead_mirror _ _])]

@[simp] theorem State.dropRequest_mirror (s : State) : s.dropRequest.alerts.mirror = s.alerts.mirror := by
  obtain ⟨_, _, _, e, g⟩ := State.dropRequest_eq s
  rw [e]; exact g.mirror
theorem State.command_mirror (w a : Word) (s : State) :
    (s.command w a).1.alerts.mirror = s.alerts.mirror := by
  unfold State.command
  split
  · unfold State.closeNamed
    split <;> [exact Books.foldl_mirror _ (fun _ _ => Books.closeGroup_mirror _ _ _ _) _ _; rfl]
  · exact (State.withMeters_mirror _ _).trans (State.dropRequest_mirror _)
  · unfold State.reprimeEntry
    split <;> [(dsimp only; split <;> [exact State.withMeters_mirror _ _; rfl]); rfl]
  · rfl
  · unfold State.injectFault; split <;> rfl
  · rfl
@[simp] theorem State.dealWith_mirror (w a : Word) (s : State) :
    (s.dealWith w a).alerts.mirror = s.alerts.mirror := by
  unfold State.dealWith
  split
  · rfl
  · split <;> [rfl; exact Alerts.giveResult_mirror _ _ _]
  · rfl
  · split <;> [rfl; exact (Alerts.giveResult_mirror _ _ _).trans (State.command_mirror _ _ _)]
theorem State.takeCommand_mirror (s : State) : s.takeCommand.alerts.mirror = s.alerts.mirror := by
  unfold State.takeCommand; split <;> [rfl; exact State.dealWith_mirror _ _ _]

theorem State.takeRecord_mirror (s : State) : s.takeRecord.alerts.mirror = s.alerts.mirror := by
  have removal : ∀ t : State, t.afterRemoval.alerts.mirror = t.alerts.mirror := by
    intro t; unfold State.afterRemoval; split <;> simp
  unfold State.takeRecord
  split
  · rfl
  · next r rest _ =>
    dsimp only
    split
    · exact (Alerts.report_mirror _ _ _).trans (removal _)
    · next e _ =>
      refine Eq.trans ?_ (removal { s with intake := { s.intake with queue := rest } })
      generalize State.afterRemoval { s with intake := { s.intake with queue := rest } } = t
      have first : ∀ (c : ChannelSetup) (h : Handling) (ms : Vector Meter 256),
          (let s1 := t.withMeters ms
           let s2 : State := { s1 with alerts := (s1.alerts.reportAll t.cfg h.defects).latchIf h.reprimed .reprimed }
           if h.reprimed then s2.withBooks (s2.books.reprimeNotice c.line) else s2).alerts.mirror =
          t.alerts.mirror := by
        intro c h ms
        dsimp only
        split
        · refine (Books.reprimeNotice_mirror _ _).trans ?_
          simp [State.books, State.ledger]
        · simp
      unfold State.handleRecord
      dsimp only
      split
      · split
        · exact first _ _ _
        · exact (Books.credit_mirror _ _ _ _).trans (first _ _ _)
      · exact first _ _ _
theorem State.handOverMiss_mirror (s : State) : s.handOverMiss.alerts.mirror = s.alerts.mirror := by
  unfold State.handOverMiss; split <;> rfl
theorem State.takeHead_mirror (s : State) : s.takeHead.alerts.mirror = s.alerts.mirror := by
  unfold State.takeHead
  split
  · rfl
  · dsimp only
    split
    · exact Alerts.latch_mirror _ _
    · split <;> [exact Alerts.latch_mirror _ _; rfl]
@[simp] theorem State.discardRecord_mirror (s : State) : s.discardRecord.alerts.mirror = s.alerts.mirror := by
  unfold State.discardRecord; split <;> exact Alerts.latch_mirror _ _
theorem State.answerRecordWrite_mirror (a : Answer) (s : State) :
    (s.answerRecordWrite a).alerts.mirror = s.alerts.mirror := by
  cases a
  · rfl
  · unfold State.answerRecordWrite; dsimp only; split <;> [exact State.discardRecord_mirror _; rfl]
theorem State.answerIndexWrite_mirror (a : Answer) (s : State) :
    (s.answerIndexWrite a).alerts.mirror = s.alerts.mirror := by
  cases a
  · show (State.publishRecord _).alerts.mirror = _
    unfold State.publishRecord; split <;> rfl
  · unfold State.answerIndexWrite; dsimp only; split <;> [exact State.discardRecord_mirror _; rfl]
theorem State.answerInitialisingWrite_mirror (a : Answer) (s : State) :
    (s.answerInitialisingWrite a).alerts.mirror = s.alerts.mirror := by
  cases a <;> [rfl; exact Alerts.latch_mirror _ _]
theorem State.takeReserveRead_mirror (a : ReadAnswer 8) (s : State) :
    (s.takeReserveRead a).alerts.mirror = s.alerts.mirror := by
  unfold State.takeReserveRead
  dsimp only
  split
  · exact Ledger.fail_mirror _ _
  · split
    · exact Ledger.loss_mirror _ _ _
    · split <;> [rfl; exact Alerts.latchIf_mirror _ _ _]
theorem State.takeConditionalWrite_mirror (a : Answer) (s : State) :
    (s.takeConditionalWrite a).alerts.mirror = s.alerts.mirror := by
  cases a <;> [rfl; exact Ledger.fail_mirror _ _]

/-! ### The Setup Unit's steps -/

theorem State.answerFetch_mirror (a : ReadAnswer 16) (s : State) :
    (s.answerFetch a).alerts.mirror = s.alerts.mirror := by
  cases a
  · rfl
  · show (Alerts.latch _ (Alerts.latch _ _)).mirror = _
    simp [Alerts.giveApplyResult, State.freePort]
@[simp] theorem State.installUnits_mirror (old new : Image) (had : Bool) (s : State) :
    (s.installUnits old new had).alerts.mirror = s.alerts.mirror := by
  obtain ⟨_, _, _, _, e, g⟩ := State.installUnits_eq old new had s
  rw [e]; exact g.mirror
@[simp] theorem State.announceInstalled_mirror (new : Image) (s : State) :
    (s.announceInstalled new).alerts.mirror = s.alerts.mirror := Alerts.latch_mirror _ _
@[simp] theorem State.afterApply_mirror (s : State) : s.afterApply.alerts.mirror = s.alerts.mirror := by
  have h : ∀ u : State, (if u.setup.pendingApply then
      { u with setup := { u.setup with pendingApply := false } }.startApply else u).alerts.mirror =
      u.alerts.mirror := by intro u; split <;> rfl
  unfold State.afterApply
  split
  · exact (h _).trans (State.dealWith_mirror _ _ _)
  · exact h _
theorem State.completeFetch_mirror (s : State) : s.completeFetch.alerts.mirror = s.alerts.mirror := by
  have h : ∀ u : State, u.alerts.mirror = s.alerts.mirror →
      (if s.setup.shadow.generation = s.candidateImage.generation then u.endFetch
        else u.endFetch.startApply).alerts.mirror = s.alerts.mirror := by
    intro u g; split <;> exact g
  unfold State.completeFetch
  apply h
  split
  · exact Alerts.latch_mirror _ _
  · exact (State.announceInstalled_mirror _ _).trans (State.installUnits_mirror _ _ _ s)
theorem State.completeValidation_mirror (s : State) : s.completeValidation.alerts.mirror = s.alerts.mirror := by
  unfold State.completeValidation
  split
  · exact (State.afterApply_mirror _).trans (Alerts.latch_mirror _ _)
  · rfl
theorem State.forceClose_mirror (s : State) : s.forceClose.alerts.mirror = s.alerts.mirror :=
  Books.forcedClose_mirror _ _ _
theorem State.install_mirror (s : State) : s.install.alerts.mirror = s.alerts.mirror :=
  (State.afterApply_mirror _).trans
    ((State.announceInstalled_mirror _ _).trans (State.installUnits_mirror _ _ _ s))
theorem State.capture_mirror (s : State) : s.capture.alerts.mirror = s.alerts.mirror := by
  unfold State.capture; split <;> rfl

/-! ### Every command -/

/-- A command other than RESET and the answer to the mirror write leaves the state, or leaves the mirror write in
hand before the request that ends its step (R171). -/
theorem exec_mirror {c : Instr} {s t : State} (h : c ≠ .resetAssert) (g : ∀ straps, c ≠ .resetRelease straps)
    (k : ∀ answer, c ≠ .mirrorWriteResponse answer) (e : exec c s = .next t) :
    t = s ∨ ∃ u : State, u.alerts.mirror = s.alerts.mirror ∧ t = u.requestMirror := by
  have key : ∀ {can : Bool} {f : State → State}, stepWhen can f s = .next t →
      (f s).alerts.mirror = s.alerts.mirror →
      t = s ∨ ∃ u : State, u.alerts.mirror = s.alerts.mirror ∧ t = u.requestMirror := by
    intro can f e k
    rcases stepWhen_next e with ⟨_, h⟩ | ⟨_, h⟩
    · exact .inl h
    · exact .inr ⟨_, k, h⟩
  cases c
  case resetAssert => exact absurd rfl h
  case resetRelease straps => exact absurd rfl (g straps)
  case mirrorWriteResponse a => exact absurd rfl (k a)
  case upstreamWrite a ws =>
    simp only [exec, execUpstreamWrite] at e
    split at e
    · exact key e (State.presentWrite_mirror _ _ _)
    · cases e
  case upstreamRead a ws =>
    simp only [exec, execUpstreamRead] at e
    split at e
    · exact key e (State.presentRead_mirror _ _ _)
    · cases e
  case clockAdvance => exact key e (State.advance_mirror s)
  case assemblyTimeout i =>
    simp only [exec, execAssemblyTimeout] at e
    exact key e (Desk.report_mirror _ _ _)
  case staleExpiry n => exact key e (State.expireStale_mirror n s)
  case binBoundaryExpiry => exact key e (State.closeDue_mirror s)
  case holdLimitExpiry => exact key e (State.enterSpill_mirror s)
  case holdRelease => exact key e (State.releaseHold_mirror s)
  case readHoldRelease => exact key e (State.releaseRead_mirror s)
  case arbiterDecision => exact key e (State.arbitrate_mirror s)
  case setupCapture => exact key e (State.capture_mirror s)
  case clockWordWrite => exact key e (State.takeClockWord_mirror s)
  case generationWrite => exact key e (State.takeGeneration_mirror s)
  case consumerIndexWrite => exact key e (State.takeConsumer_mirror s)
  case latchedAlertRead => exact key e (State.takeObservation_mirror s)
  case noCommand => exact key e (State.takeCommand_mirror s)
  case closeBins => exact key e (State.takeCommand_mirror s)
  case restart => exact key e (State.takeCommand_mirror s)
  case reprime => exact key e (State.takeCommand_mirror s)
  case transferCounters => exact key e (State.takeCommand_mirror s)
  case injectCheckFault => exact key e (State.takeCommand_mirror s)
  case undefinedCommand => exact key e (State.takeCommand_mirror s)
  case recordTake => exact key e (State.takeRecord_mirror s)
  case handOver => exact key e (State.handOverHead_mirror s)
  case tallyMissHandOver => exact key e (State.handOverMiss_mirror s)
  case takeIntoHand => exact key e (State.takeHead_mirror s)
  case recordWriteResponse a => exact key e (State.answerRecordWrite_mirror a s)
  case indexWriteResponse a => exact key e (State.answerIndexWrite_mirror a s)
  case initialisingWriteResponse a => exact key e (State.answerInitialisingWrite_mirror a s)
  case reserveReadResponse a => exact key e (State.takeReserveRead_mirror a s)
  case conditionalWriteResponse a => exact key e (State.takeConditionalWrite_mirror a s)
  case fetchReadResponse a => exact key e (State.answerFetch_mirror a s)
  case fetchValidationCompletion => exact key e (State.completeFetch_mirror s)
  case validationCompletion => exact key e (State.completeValidation_mirror s)
  case quiesceMet => exact key e (State.forceClose_mirror s)
  case installation => exact key e (State.install_mirror s)
  all_goals
    simp only [exec, execTickPulse, execChangeoverTimerExpiry, execReportTimerExpiry, execBackoffExpiry,
      execPassthroughResponse, execUpdateIntoHand, execDiscardedDownstreamResponse] at e
    exact key e rfl

end Sys2Proof.Machine
end

