-- ==== Sys2Proof/Laws/Validation.lean ====
section
/-! SUPPORT. Validation: the check sum over words 0 to 1351, and the first entry of a table that fails. -/

namespace Sys2Proof.Machine

/-! ### The check sum (R152) -/

theorem onesAdd_eq {a b : Nat} (ha : a ≤ 65535) (hb : b ≤ 65535) :
    onesAdd a b = if a + b < 65536 then a + b else a + b - 65536 + 1 := by
  unfold onesAdd; split <;> omega

theorem onesAdd_le {a b : Nat} (ha : a ≤ 65535) (hb : b ≤ 65535) : onesAdd a b ≤ 65535 := by
  rw [onesAdd_eq ha hb]; split <;> omega

theorem halves_eq (w : Word) : halves w = [w.toNat / 65536, w.toNat % 65536] := by
  have := w.isLt
  simp only [halves, bits]
  congr 1 <;> [skip; congr 1] <;> omega

/-- A word added to a sum of 16 bits. -/
def addWord (sum : Nat) (w : Word) : Nat := (halves w).foldl onesAdd sum

theorem addWord_le {a : Nat} (w : Word) (h : a ≤ 65535) : addWord a w ≤ 65535 := by
  have := w.isLt
  unfold addWord; rw [halves_eq]
  exact onesAdd_le (onesAdd_le h (by omega)) (by omega)

theorem addWord_zero {a : Nat} (h : a ≤ 65535) : addWord a 0 = a := by
  unfold addWord; rw [halves_eq]
  show onesAdd (onesAdd a 0) 0 = a
  simp only [onesAdd]; omega

theorem onesSum_eq (ws : List Word) : onesSum ws = ws.foldl addWord 0 := by
  unfold onesSum addWord
  rw [List.foldl_flatMap]

/-- The sum with its end-around carry spelled out. -/
theorem onesSum_carry (ws : List Word) : onesSum ws =
    (ws.flatMap (fun w => [w.toNat / 65536, w.toNat % 65536])).foldl
      (fun sum half => if sum + half < 65536 then sum + half else sum + half - 65536 + 1) 0 := by
  rw [onesSum_eq, List.foldl_flatMap]
  suffices h : ∀ a, a ≤ 65535 → ws.foldl addWord a = ws.foldl (fun a w =>
      [w.toNat / 65536, w.toNat % 65536].foldl
        (fun sum half => if sum + half < 65536 then sum + half else sum + half - 65536 + 1) a) a from h 0 (by omega)
  induction ws with
  | nil => intros; rfl
  | cons w ws ih =>
    intro a ha
    have := w.isLt
    rw [List.foldl_cons, List.foldl_cons, ih _ (addWord_le w ha)]
    congr 1
    unfold addWord; rw [halves_eq]
    simp only [List.foldl_cons, List.foldl_nil]
    rw [onesAdd_eq (onesAdd_le ha (by omega)) (by omega), onesAdd_eq ha (by omega)]

theorem Image.foldl_summed (k : Nat) : ∀ (lo a : Nat) (m : Image), lo + k = 1352 → m.risingFrom lo = true →
    a ≤ 65535 → m.summed.foldl addWord a =
      ((List.range' lo k).map (fun i => if 2 ≤ i ∧ i ≤ 4 then 0 else m.get i)).foldl addWord a := by
  induction k with
  | zero =>
    intro lo a m hk h ha
    have : m.summed = [] := by
      unfold Image.summed
      rw [List.map_eq_nil_iff, List.filter_eq_nil_iff]
      intro c hc
      have : ∀ (m : Image) lo, m.risingFrom lo = true → ∀ c ∈ m, lo ≤ c.1 := by
        intro m
        induction m with
        | nil => intro _ _ c hc; cases hc
        | cons d rest ih =>
          intro lo h c hc
          obtain ⟨j, v⟩ := d
          simp only [Image.risingFrom, Bool.and_eq_true, decide_eq_true_eq] at h
          rcases List.mem_cons.1 hc with rfl | hc
          · exact h.1.1
          · have := ih _ h.2 c hc; omega
      have := this m lo h c hc
      simp; omega
    rw [this]; rfl
  | succ k ih =>
    intro lo a m hk h ha
    rw [List.range'_succ, List.map_cons, List.foldl_cons]
    have skip : m.risingFrom (lo + 1) = true → m.summed.foldl addWord a =
        ((List.range' (lo + 1) k).map (fun i => if 2 ≤ i ∧ i ≤ 4 then 0 else m.get i)).foldl addWord
          (addWord a (if 2 ≤ lo ∧ lo ≤ 4 then 0 else m.get lo)) := by
      intro h'
      rw [Image.get_of_rising h' (by omega), ite_self, addWord_zero ha]
      exact ih (lo + 1) a m (by omega) h' ha
    cases m with
    | nil => exact skip rfl
    | cons c rest =>
      obtain ⟨j, w⟩ := c
      simp only [Image.risingFrom, Bool.and_eq_true, decide_eq_true_eq] at h
      by_cases hj : j = lo
      · subst hj
        have tail : (List.range' (j + 1) k).map (fun i => if 2 ≤ i ∧ i ≤ 4 then 0 else Image.get ((j, w) :: rest) i) =
            (List.range' (j + 1) k).map (fun i => if 2 ≤ i ∧ i ≤ 4 then 0 else Image.get rest i) := by
          apply List.map_congr_left
          intro i hi
          have := List.mem_range'_1.1 hi
          simp only [Image.get, if_neg (show i ≠ j by omega)]
        rw [tail]
        have hg : Image.get ((j, w) :: rest) j = w := by simp [Image.get]
        rw [hg]
        unfold Image.summed
        by_cases hz : 2 ≤ j ∧ j ≤ 4
        · rw [if_pos hz, addWord_zero ha, List.filter_cons_of_neg (by simp; omega)]
          exact ih (j + 1) a rest (by omega) h.2 ha
        · rw [if_neg hz, List.filter_cons_of_pos (by simp; omega), List.map_cons, List.foldl_cons]
          exact ih (j + 1) _ rest (by omega) h.2 (addWord_le w ha)
      · exact skip (by simp only [Image.risingFrom, Bool.and_eq_true, decide_eq_true_eq]; exact ⟨⟨by omega, h.1.2⟩, h.2⟩)

/-- The listed words give the sum over words 0 to 1351, the command word, its argument and the clock word counting
as zero (R152). -/
theorem Image.onesSum_summed (m : Image) (h : m.wf = true) : onesSum m.summed =
    onesSum ((List.range 1352).map (fun i => if 2 ≤ i ∧ i ≤ 4 then 0 else m.get i)) := by
  rw [onesSum_eq, onesSum_eq, List.range_eq_range']
  exact Image.foldl_summed 1352 0 0 m rfl h (by omega)

/-! ### Overlaps and first failures -/

/-- Two spans overlap when they share an address. -/
theorem overlaps_iff (a la b lb : Nat) :
    overlaps a la b lb = true ↔ ∃ x, a ≤ x ∧ x < a + la ∧ b ≤ x ∧ x < b + lb := by
  unfold overlaps
  simp only [Bool.and_eq_true, decide_eq_true_eq]
  constructor
  · intro ⟨⟨⟨h1, h2⟩, h3⟩, h4⟩
    exact ⟨max a b, by omega, by omega, by omega, by omega⟩
  · rintro ⟨x, h1, h2, h3, h4⟩; omega

/-- Where nothing fails there is no reject. -/
theorem firstReject_none {code : Nat} {l : List Nat} : firstReject code l = none ↔ l = [] := by
  cases l <;> simp [firstReject]

/-- The reject names the first entry that fails. -/
theorem firstReject_append {α : Type} {code : Nat} {f : α → Nat} {fails : α → Bool} {a : α} {p q : List α}
    (ha : fails a = true) (h : ∀ x ∈ p, fails x = false) :
    firstReject code (((p ++ a :: q).filter fails).map f) = some { code := code, index := f a } := by
  have : p.filter fails = [] := List.filter_eq_nil_iff.2 (fun x hx => by simp [h x hx])
  rw [List.filter_append, this, List.nil_append, List.filter_cons_of_pos ha]
  rfl

/-- In a table the reject names the lowest entry that fails (R151). -/
theorem firstReject_lowest {n code : Nat} {fails : Fin n → Bool} {i : Fin n} (hi : fails i = true)
    (h : ∀ j, j < i → fails j = false) :
    firstReject code (((List.finRange n).filter fails).map Fin.val) = some { code := code, index := i } := by
  have e : List.finRange n = (List.finRange n).take i ++ i :: (List.finRange n).drop (i + 1) := by
    have hl : i.val < (List.finRange n).length := by simp
    conv_lhs => rw [← List.take_append_drop i.val (List.finRange n), List.drop_eq_getElem_cons hl]
    simp
  rw [e]
  refine firstReject_append hi (fun x hx => h x ?_)
  obtain ⟨k, hk, rfl⟩ := List.mem_take_iff_getElem.1 hx
  simp at hk ⊢
  exact Fin.lt_def.2 (by simp; omega)

/-- A table no entry of which fails gives no reject. -/
theorem firstReject_clear {n code : Nat} {fails : Fin n → Bool} (h : ∀ i, fails i = false) :
    firstReject code (((List.finRange n).filter fails).map Fin.val) = none := by
  rw [firstReject_none, List.map_eq_nil_iff, List.filter_eq_nil_iff]
  intro i _
  simp [h i]

end Sys2Proof.Machine
end

