-- ==== Sys2Proof/Tests/Slice0.lean ====
section
/-! SUPPORT. The author's own tests: ill-formed commands, one small step of every command, worked values of the
spec, and for each statement states and operands that meet its hypotheses (`test_witness_<statement>`). -/

open Sys2Proof Sys2Proof.Machine

namespace Sys2Proof.Tests

set_option Elab.async false

/-! ### Small states -/

/-- The header, window and line words of a small setup that passes validation: window 0 at 00400000h; furnace 0
with children 1, 2 and 3; line 5 alone at the head of its group. -/
def headImage : Image :=
  [(0, 0x57A4C0DE), (1, 1), (5, 0x00100000), (6, 1), (7, 48), (8, 16), (9, 20), (10, 3), (11, 1), (12, 0x32),
   (13, 0x10009), (14, 6), (15, 5), (17, 0x2A), (31, 49482), (32, 0x00400000), (33, 2168459264),
   (136, 524289), (137, 3600), (138, 0x00800000), (139, 16), (140, 130), (141, 39321600), (142, 0x00801000),
   (143, 16), (144, 130), (145, 39321600), (146, 0x00802000), (147, 16), (148, 130), (149, 39321600),
   (150, 0x00803000), (151, 16), (156, 2097154), (157, 900), (158, 0x00804000), (159, 16)]

/-- Its channel entries and its admit map: entry 7 is channel 40 of line 2, entry 20 channel 317 of line 1, entry
30 channel 902, entry 31 channel 77. -/
def tailImage : Image :=
  [(228, 2415927336), (229, 675021), (230, 2000), (231, 3932210), (280, 2684621117), (281, 147456),
   (282, 10000), (283, 3932160), (320, 2550408070), (321, 65536), (322, 5000), (323, 3932160),
   (324, 2684420173), (325, 65536000), (326, 1000), (327, 3932160), (1225, 256), (1226, 8192),
   (1233, 536870912), (1252, 64)]

/-- The small setup. -/
def img : Image := headImage ++ tailImage

/-- The small setup with guard policy PASS. -/
def passing : Image := img.set 6 0

/-- The part after the release of RESET with straps of 10h. -/
def released : State := .hardReset [] false .free 0x10 0

/-- The part ACTIVE under a setup, its lines running. -/
def under (m : Image) : State :=
  { released with
    setup := { released.setup with shadow := m, active := some m, part := .active, fetchPosition := 128 },
    lines := { released.lines with
      lines := tabulate 16 (fun n => { Line.hardReset with state := if m.kind n = .none then .idle else .running }),
      bounds := tabulate 16 (fun h => if m.isHead h then some (m.boundAt h 0) else none) } }

/-- The part ACTIVE under the small setup. -/
def live : State := under img

/-- A part state in place of the state's own. -/
def inPart (p : Part) (s : State) : State := { s with setup := { s.setup with part := p } }

/-- A transaction of an internal client on the port. -/
def carrying (c : Client) (s : State) : State :=
  { s with pass := { s.pass with port := .internal c (.read 0 []) } }

/-- The line `n` changed. -/
def withLine (n : Fin 16) (f : Line → Line) (s : State) : State :=
  { s with lines := { s.lines with lines := s.lines.lines.set n (f s.lines.lines[n]) } }

/-- The meter `e` changed. -/
def withMeter (e : Fin 256) (f : Meter → Meter) (s : State) : State :=
  { s with channels := { s.channels with meters := s.channels.meters.set e (f s.channels.meters[e]) } }

/-- The ring of line `n` changed. -/
def withRing (n : Fin 16) (f : Ring → Ring) (s : State) : State :=
  { s with writer := { s.writer with rings := s.writer.rings.set n (f s.writer.rings[n]) } }

/-- A notice of one whole word at setup word `i`, no delivery owed. -/
def noticeAt (i : Nat) (w : Word) : Notice :=
  { address := 0x10000000 + 4 * i, words := [fullWord w], captureDue := false, clockDue := false,
    generationDue := false, commandDue := false, consumerDue := false }

/-- A notice in delivery. -/
def holding (n : Notice) (s : State) : State := { s with pass := { s.pass with notice := some n } }

/-- The notice of a changed command word. -/
def commandNotice : Notice := { noticeAt 2 0x100 with commandDue := true }

/-- A command word and its argument in the shadow, the command word the next delivery. -/
def commanded (word arg : Word) (s : State) : State :=
  holding commandNotice
    { s with setup := { s.setup with shadow := (s.setup.shadow.set 2 word).set 3 arg } }

/-- An update for tally entry 1025. -/
def update : Update :=
  { entry := 1025, line := 1, energy := 7, pulled := 2, packed := 1, changeover := 0, count := 1, time := 9 }

/-- A record of the writer queue. -/
def record (n : Fin 16) : ResultRecord := { kind := .bin, line := n, words := List.replicate 16 0 }

/-- An entry of the miss list. -/
def missed : Miss := Miss.make .contention false update

/-- A burst of whole words. -/
def burst (ws : List Word) : List WriteWord := ws.map fullWord

/-- A READING of channel 317 with sequence 42 and value 1200000, three words with no tag (section 10.1). -/
def reading : List Word := [0x5C10032A, 0x4FF6013D, 1200000]

/-- A record of the intake queue. -/
def tap (channel : Nat) : TapRecord :=
  { kind := .reading, sequence := 42, channel := channel, tags := [], value := 1200000 }

/-- The step answers a next state with the property. -/
def answers (o : Result) (p : State → Bool) : Bool :=
  match o with
  | .next t => p t
  | _ => false

/-! ### Well-formedness -/

theorem test_burst_of_no_words_refused : (Instr.upstreamWrite 0 []).wellFormed = false := by decide
theorem test_burst_of_17_words_refused :
    (Instr.upstreamRead 0 (List.replicate 17 15)).wellFormed = false := by decide
theorem test_burst_off_a_word_address_refused :
    (Instr.upstreamRead 2 [15]).wellFormed = false := by decide
theorem test_answer_of_17_words_refused :
    (Instr.passthroughResponse (.ok (List.replicate 17 0))).wellFormed = false := by decide
theorem test_bursts_of_1_and_16_words_accepted :
    (Instr.upstreamWrite 0xFFFFFFFC (burst [0])).wellFormed = true ∧
    (Instr.upstreamRead 4 (List.replicate 16 0)).wellFormed = true := by decide

/-! ### Worked values of the spec -/

/-- The byte 00h leaves FD02h (R46). -/
theorem test_crc_of_byte_zero : (List.replicate 8 false).foldl crcBit 0xFFFF = 0xFD02 := by decide

/-- The largest mass, on the lowest line among equals, takes the residue (R92). -/
theorem test_apportion_residue : apportion 1000001 [(9, 3000), (10, 3000), (11, 2000)] =
    ([(9, 375001), (10, 375000), (11, 250000)], 0) := by decide +kernel

theorem test_reading_passes_its_check : onesSum reading = 65535 := by decide
theorem test_small_setup_is_valid : img.validate 0x10000000 = none := by decide +kernel
theorem test_small_setup_is_canonical : img.wf = true := by decide +kernel

/-! ### One step of every command -/

theorem test_exec_resetAssert :
    answers (exec .resetAssert live) (fun t => t.inReset && t.setup.part == .fetching) = true := by
  decide +kernel
theorem test_exec_resetRelease : answers (exec (.resetRelease 0xFF) .reset)
    (fun t => t.fetchTxn == .read 0xFF000000 (List.replicate 16 15)) = true := by decide +kernel
theorem test_exec_tickPulse :
    answers (exec .tickPulse { released with lines := { released.lines with pulses := 999 } })
      (fun t => t.lines.pulses == 0 && t.lines.advancesDue == 1) = true := by decide +kernel
/-- One advance due. -/
def advancing : State := { live with lines := { live.lines with advancesDue := 1 } }
theorem test_exec_clockAdvance :
    answers (exec .clockAdvance (withLine 1 (fun l => { l with state := .stopped }) advancing))
      (fun t => t.lines.clock == 1 && t.lines.lines[1].bin.stoppedSeconds == 1) = true := by decide +kernel
/-- Window 0 holds two words of a record, its timer at zero. -/
def assembling : State := { live with
  intake := { live.intake with
    windows := live.intake.windows.set 0
      { partialRecord := some { words := reading.take 2, length := 3, expected := 0x00400008 },
        timer := some 0, inject := false } } }
theorem test_exec_assemblyTimeout : answers (exec (.assemblyTimeout 0) assembling)
    (fun t => t.alerts.has .stray && t.intake.windows[0].partialRecord.isNone) = true := by decide +kernel
/-- The meter of entry 20 in a state, its timer at zero. -/
def expiring (p : MeterStanding) (gap : Nat) : State :=
  withMeter 20 (fun m => { m with state := p, timer := some 0, gap := gap }) live
theorem test_exec_staleExpiry : answers (exec (.staleExpiry 20) (expiring .live 0))
    (fun t => t.channels.anyStale && t.alerts.has .staleEnter && t.channels.meters[20].timer == some 60) =
    true := by decide +kernel
/-- Line 1 in CHANGEOVER, its timer at zero. -/
def changing : State := withLine 1 (fun l => { l with state := .changeover, timer := some 0 }) live
theorem test_exec_changeoverTimerExpiry : answers (exec (.changeoverTimerExpiry 1) changing)
    (fun t => t.lines.lines[1].state == .running) = true := by decide +kernel
/-- The clock at a boundary of both groups. -/
def bounded : State := { live with lines := { live.lines with clock := 3600 } }
theorem test_exec_binBoundaryExpiry : answers (exec .binBoundaryExpiry bounded)
    (fun t => t.lines.handOver == [(.bin, 0), (.bin, 1), (.bin, 2), (.bin, 3)] &&
      t.tally.queue.length == 4 && t.lines.bounds[0] == some { bin := 7200, epoch := 28800 }) = true := by
  decide +kernel
/-- The report timer at zero. -/
def reporting : State := { live with alerts := { live.alerts with reportTimer := some 0 } }
theorem test_exec_reportTimerExpiry : answers (exec .reportTimerExpiry reporting)
    (fun t => t.alerts.reportTimer == some 5 && t.alerts.mirror == some .report) = true := by decide +kernel
/-- A burst held at window 0, its timer at zero. -/
def held (due : Bool) : State := { assembling with
  pass := { live.pass with
    heldWrite := some (0x00400000, burst [0]), holdTimer := some 0, releaseDue := due } }
theorem test_exec_holdLimitExpiry : answers (exec .holdLimitExpiry (held false))
    (fun t => t.pass.spilling && t.pass.slot == some (.write 0x00400000 (burst [0])) &&
      t.intake.windows[0].partialRecord.isNone) = true := by decide +kernel
/-- The engine in BACKOFF, its timer at zero. -/
def backedOff : State := { live with
  tally := { live.tally with queue := [update], state := .backoff, backoff := some 0, losses := 1 } }
theorem test_exec_backoffExpiry : answers (exec .backoffExpiry backedOff)
    (fun t => t.tally.state == .readWait && t.tally.losses == 1) = true := by decide +kernel
theorem test_exec_upstreamWrite : answers (exec (.upstreamWrite 0x00400000 (burst reading)) live)
    (fun t => t.pass.slot == some (.write 0x00400000 (burst reading)) && !t.uready) = true := by
  decide +kernel
theorem test_exec_upstreamWrite_refused : answers (exec (.upstreamWrite 0x10002000 (burst [0])) live)
    (fun t => t.alerts.has .guard && t.pass.lastAnswer == some .error && t.pass.slot.isNone) = true := by
  decide +kernel
theorem test_exec_upstreamRead : answers (exec (.upstreamRead 0xFFFFFFFC [15, 15]) live)
    (fun t => t.pass.lastAnswer == some .error) = true := by decide +kernel
theorem test_exec_holdRelease : answers (exec .holdRelease (held true))
    (fun t => t.pass.heldWrite.isNone && t.pass.slot.isSome && !t.pass.spilling) = true := by decide +kernel
/-- A read that waits, the read-hold flag clear. -/
def readWaiting : State := { live with pass := { live.pass with heldRead := some (0x10002000, [15]) } }
theorem test_exec_readHoldRelease : answers (exec .readHoldRelease readWaiting)
    (fun t => t.pass.slot == some (.read 0x10002000 [15])) = true := by decide +kernel
/-- A write of a whole record in the slot. -/
def loaded : State := { live with
  pass := { live.pass with slot := some (.write 0x00400000 (burst reading)) } }
theorem test_exec_arbiterDecision : answers (exec .arbiterDecision loaded)
    (fun t => t.pass.port == .passthrough && t.intake.queue == [tap 317] && t.intake.accepted == 1) = true := by
  decide +kernel
/-- The engine waits for its conditional write, a broken reservation held; the turn is the engine's. -/
def broken (losses : Nat) : State := { live with
  tally := { live.tally with
    queue := [update], state := .writeWait, losses := losses, computed := some (List.replicate 8 0),
    reservation := some { entry := 1025, intact := false } } }
theorem test_exec_arbiterDecision_withdraws : answers (exec .arbiterDecision (broken 7))
    (fun t => t.pass.port == .free && t.tally.misses == [missed] && t.tally.queue.isEmpty) = true := by
  decide +kernel
/-- A notice of word 20 to be merged. -/
def capturing : State := holding { noticeAt 20 5 with captureDue := true } live
theorem test_exec_setupCapture : answers (exec .setupCapture capturing)
    (fun t => t.setup.shadow.get 20 == 5 && t.pass.notice.isNone) = true := by decide +kernel
/-- A notice of the clock word. -/
def clocking (v : Word) : State := holding { noticeAt 4 v with clockDue := true } live
theorem test_exec_clockWordWrite : answers (exec .clockWordWrite (clocking 3600))
    (fun t => t.lines.clock == 3600 && t.alerts.has .clockStep && t.lines.handOver.length == 5) = true := by
  decide +kernel
/-- A notice of the generation word, once merged. -/
def generating (g : Word) (s : State) : State := holding { noticeAt 1 g with generationDue := true }
  { s with setup := { s.setup with shadow := s.setup.shadow.set 1 g } }
theorem test_exec_generationWrite : answers (exec .generationWrite (generating 2 live))
    (fun t => t.setup.part == .applying .validate && t.setup.candidate == some (img.set 1 2)) = true := by
  decide +kernel
/-- A notice of the consumer index of ring 1. -/
def consuming (v : Word) : State := holding
  { noticeAt 0 v with address := 0x00801004, consumerDue := true }
  (withRing 1 (fun r => { r with producer := 16 }) live)
theorem test_exec_consumerIndexWrite :
    answers (exec .consumerIndexWrite (consuming 16)) (fun t => t.writer.rings[1].shadow == 16) = true ∧
    answers (exec .consumerIndexWrite (consuming 17)) (fun t => t.alerts.has .consumerInvalid) = true := by
  decide +kernel
/-- An observation of the latched word while bits 1 and 3 are latched. -/
def observed (w : Word) : State := { live with
  pass := { live.pass with observation := some w }, alerts := { live.alerts with latched := 0b1010 } }
theorem test_exec_latchedAlertRead : answers (exec .latchedAlertRead (observed 0b10))
    (fun t => t.alerts.latched == 0b1000 && t.alerts.readHold && t.alerts.mirror == some .latched) = true := by
  decide +kernel
theorem test_exec_noCommand : answers (exec .noCommand (commanded 0x100 0 live))
    (fun t => t.setup.lastCommand == 0x100 && t.pass.notice.isNone) = true := by decide +kernel
theorem test_exec_closeBins : answers (exec .closeBins (commanded 0x101 0x20 live))
    (fun t => t.lines.handOver == [(.bin, 5)] && t.alerts.commandResult.result == .done) = true := by
  decide +kernel
theorem test_exec_restart : answers (exec .restart (commanded 0x102 0 changing))
    (fun t => t.lines.lines[1].state == .running && t.alerts.commandResult.result == .done) = true := by
  decide +kernel
theorem test_exec_reprime : answers (exec .reprime (commanded 0x103 20 live))
    (fun t => t.channels.meters[20].state == .unseen && t.alerts.commandResult.result == .done) = true := by
  decide +kernel
/-- Counter 0 (manual) at 3. -/
def counted : State := { live with
  alerts := { live.alerts with counters := live.alerts.counters.set 0 { count := 3, latch := 0 } } }
theorem test_exec_transferCounters : answers (exec .transferCounters (commanded 0x104 0 counted))
    (fun t => t.alerts.counters[0] == { count := 0, latch := 3 }) = true := by decide +kernel
theorem test_exec_injectCheckFault : answers (exec .injectCheckFault (commanded 0x105 3 live))
    (fun t => t.intake.windows[3].inject && t.alerts.has .commandDone) = true := by decide +kernel
theorem test_exec_undefinedCommand : answers (exec .undefinedCommand (commanded 0x106 0 live))
    (fun t => t.alerts.commandResult == { word := 0x106, result := .badArgument }) = true := by decide +kernel
/-- A read of the latched word on the port. -/
def reading0 : State := { live with
  pass := { live.pass with port := .passthrough, slot := some (.read 0x10002000 [15]) } }
theorem test_exec_passthroughResponse : answers (exec (.passthroughResponse (.ok [6])) reading0)
    (fun t => t.pass.observation == some 6 && t.pass.port == .free && t.pass.slot.isNone) = true := by
  decide +kernel
/-- A record in the intake queue, its channel UNSEEN. -/
def queued (channel : Nat) : State :=
  withMeter 20 (fun m => { m with state := .unseen })
    { live with intake := { live.intake with queue := [tap channel] } }
theorem test_exec_recordTake : answers (exec .recordTake (queued 317))
    (fun t => t.channels.meters[20].state == .live && t.channels.meters[20].baseline == 1200000) = true := by
  decide +kernel
/-- The closing snapshot of line 1 waits. -/
def snapped : State :=
  let s := withLine 1 (fun l => { l with closing := some (l.closedBin .forming 60 0 5) }) live
  { s with lines := { s.lines with handOver := [(.bin, 1)] } }
theorem test_exec_handOver : answers (exec .handOver snapped)
    (fun t => t.writer.queue.length == 1 && t.lines.handOver.isEmpty && t.lines.lines[1].closing.isNone) =
    true := by decide +kernel
/-- The miss list holds an entry. -/
def missing : State := { live with tally := { live.tally with misses := [missed] } }
theorem test_exec_tallyMissHandOver : answers (exec .tallyMissHandOver missing)
    (fun t => t.writer.queue == [missed.record] && t.tally.misses.isEmpty) = true := by decide +kernel
/-- A record of line `n` at the head of the writer queue. -/
def written (n : Fin 16) (k : Option WriteStep) (s : State) : State :=
  { s with writer := { s.writer with queue := [record n], step := k } }
theorem test_exec_takeIntoHand : answers (exec .takeIntoHand (written 1 none live))
    (fun t => t.writer.step == some .recordWrite && t.writer.rings[1].reserved &&
      (t.writerRequest.map Prod.fst == some .recordWrite)) = true := by decide +kernel
theorem test_exec_recordWriteResponse :
    answers (exec (.recordWriteResponse .ok) (carrying .recordWrite (written 1 (some .recordWrite) live)))
      (fun t => t.writer.step == some .indexWrite) = true := by decide +kernel
theorem test_exec_indexWriteResponse :
    answers (exec (.indexWriteResponse .ok) (carrying .indexWrite (written 1 (some .indexWrite) live)))
      (fun t => t.writer.rings[1].producer == 1 && t.writer.queue.isEmpty) = true := by decide +kernel
theorem test_exec_initialisingWriteResponse :
    answers (exec (.initialisingWriteResponse .error) (carrying (.initialisingWrite 1) live))
      (fun t => t.alerts.has .memoryFault && t.pass.port == .free) = true := by decide +kernel
/-- The engine with one update. -/
def posted (p : EngineState) (s : State) : State :=
  { s with tally := { s.tally with queue := [update], state := p } }
theorem test_exec_updateIntoHand : answers (exec .updateIntoHand (posted .idle live))
    (fun t => t.tally.state == .readWait) = true := by decide +kernel
theorem test_exec_reserveReadResponse :
    answers (exec (.reserveReadResponse (.ok (Vector.replicate 8 0))) (carrying .reserveRead (posted .readOut live)))
      (fun t => t.tally.computed == some [1, 7, 0, 2, 1, 0, 1, 9]) = true := by decide +kernel
theorem test_exec_conditionalWriteResponse :
    answers (exec (.conditionalWriteResponse .error) (carrying .conditionalWrite (posted .writeWait live)))
      (fun t => t.tally.misses.length == 1 && t.alerts.has .memoryFault && t.tally.state == .idle) = true := by
  decide +kernel
/-- A fetch with burst `k` on the port. -/
def fetching (k : Nat) : State :=
  carrying .fetch { released with setup := { released.setup with fetchPosition := k } }
theorem test_exec_fetchReadResponse : answers (exec (.fetchReadResponse (.ok (Vector.replicate 16 9))) (fetching 127))
    (fun t => t.setup.fetchPosition == 128 && t.setup.shadow.get 2047 == 9 && t.setup.candidate == some []) =
    true := by decide +kernel
/-- A whole fetch, its candidate to be validated. -/
def fetched (shadow candidate : Image) : State := { released with
  setup := { released.setup with fetchPosition := 128, shadow := shadow, candidate := some candidate } }
theorem test_exec_fetchValidationCompletion : answers (exec .fetchValidationCompletion (fetched img img))
    (fun t => t.setup.part == .active && t.alerts.has .setupApplied && t.lines.lines[5].state == .running &&
      t.alerts.mirror == some .latched) = true := by decide +kernel
theorem test_exec_mirrorWriteResponse :
    answers (exec (.mirrorWriteResponse .ok) { carrying (.mirror .report) live with
        alerts := { live.alerts with mirror := some .report, owed := { live.alerts.owed with counters := true } } })
      (fun t => t.alerts.mirror == some .counters && t.pass.port == .free) = true := by decide +kernel
/-- An apply of a candidate in a phase. -/
def applying (p : Phase) (c : Image) : State :=
  let s := inPart (.applying p) live
  { s with setup := { s.setup with candidate := some c } }
theorem test_exec_validationCompletion : answers (exec .validationCompletion (applying .validate []))
    (fun t => t.setup.part == .active && t.alerts.applyResult.code == 1 && t.alerts.has .setupRejected) =
    true := by decide +kernel
theorem test_exec_quiesceMet : answers (exec .quiesceMet (applying .quiesce (img.set 157 450)))
    (fun t => t.setup.part == .applying .drain && t.lines.handOver == [(.bin, 5), (.epoch, 5)]) = true := by
  decide +kernel
theorem test_exec_installation : answers (exec .installation (applying .drain (img.set 157 450)))
    (fun t => t.setup.part == .active && t.lines.bounds[5] == some { bin := 450, epoch := 14400 } &&
      t.alerts.has .setupApplied) = true := by decide +kernel
theorem test_exec_discardedDownstreamResponse :
    answers (exec .discardedDownstreamResponse (.hardReset [] true .orphan 0 0))
      (fun t => t.pass.port == .free) = true := by decide +kernel

/-! ### States and operands that meet the hypotheses of the statements -/

theorem test_witness_StepTakesTheFrontCommand :
    ({ live with pending := [.tickPulse, .recordTake] } : State).pending = .tickPulse :: [.recordTake] := rfl
theorem test_witness_EmptyQueuePassesAFineInterval :
    State.reset.pending = [] ∧ State.reset.inReset = true ∧ backedOff.pending = [] ∧ backedOff.inReset = false :=
  ⟨rfl, rfl, rfl, rfl⟩
theorem test_witness_EveryPortCommandAnswersNext :
    Instr.wellFormed (.upstreamWrite 0 (burst [0])) = true ∧
    burstWellFormed 0 (burst []).length = false ∧ burstWellFormed 0 (List.replicate 17 0#4).length = false ∧
    burstWellFormed 3 (burst [0]).length = false := by decide
theorem test_witness_ResetCommandsTakeHardResetValues :
    State.reset.inReset = true ∧ State.reset.pass.port = .free ∧
    (State.hardReset [] true .orphan 0 0).inReset = true ∧
    (State.hardReset [] true .orphan 0 0).pass.port ≠ .free := by decide
theorem test_witness_PlacementIsSampledAtReleaseAlone :
    answers (exec (.resetRelease 255) .reset) (fun t => t.setup.base == 255) = true ∧
    answers (exec (.resetRelease 255) live) (fun t => t.setup.base == 0x10) = true ∧
    answers (exec .tickPulse live) (fun t => t.setup.base == 0x10) = true ∧
    live.setup.wordNumber 0x10000000 = some 0 ∧ live.setup.wordNumber 0x10001FFF = some 2047 ∧
    live.setup.part = .active ∧ live.setup.active.isSome = true ∧
    (applying .drain img).setup.part = .applying .drain ∧ (applying .drain img).setup.active.isSome = true ∧
    live.guarded 0x10002000 = true ∧ live.guarded 0x100020FF = true ∧ live.guarded 0x10002100 = false := by
  decide +kernel
theorem test_witness_NothingElseHappensUnderReset :
    State.reset.inReset = true ∧ Instr.wellFormed .tickPulse = true ∧
    (State.hardReset [] true .orphan 0 0).pass.port = .orphan := by decide
theorem test_witness_TickPulseCountsAndLowersAssemblyTimers :
    assembling.inReset = false ∧ (assembling.intake.windows[0]).timer = some 0 ∧
    assembling.lines.pulses + 1 < 1000 := by decide +kernel

/-- The last second before the clock wraps, one advance due. -/
def wrapping : State := { advancing with
  lines := { advancing.lines with clock := 0xFFFFFFFF, bounds := tabulate 16 (fun _ => none) } }
theorem test_witness_ClockAdvanceAddsOneSecond :
    (advancing.steady = true ∧ 0 < advancing.lines.advancesDue ∧ advancing.closesTaken = true ∧
      advancing.expiryDue = false ∧ advancing.lines.clock + 1 ≠ 0 ∧
      (advancing.lines.lines[0]).state = .running ∧ (advancing.lines.lines[4]).state = .idle) ∧
    (wrapping.steady = true ∧ 0 < wrapping.lines.advancesDue ∧ wrapping.closesTaken = true ∧
      wrapping.expiryDue = false ∧ wrapping.lines.clock + 1 = 0) ∧
    let s := withLine 1 (fun l => { l with state := .stopped })
      (withLine 2 (fun l => { l with state := .changeover, timer := some 1 }) advancing)
    s.steady = true ∧ 0 < s.lines.advancesDue ∧ s.closesTaken = true ∧ s.expiryDue = false ∧
    (s.lines.lines[1]).state = .stopped ∧ (s.lines.lines[2]).state = .changeover := by decide +kernel
theorem test_witness_TimerExpiriesActOnTheirOwners :
    (assembling.steady = true ∧ (assembling.intake.windows[0]).timer = some 0 ∧
      (assembling.intake.windows[0]).partialRecord.isSome = true) ∧
    (changing.steady = true ∧ (changing.lines.lines[1]).state = .changeover ∧
      (changing.lines.lines[1]).timer = some 0) ∧
    (reporting.steady = true ∧ reporting.alerts.reportTimer = some 0) := by decide +kernel
theorem test_witness_StaleExpiryEntersStaleOrRaisesTheGap :
    (expiring .live 0).steady = true ∧ ((expiring .live 0).channels.meters[20]).timer = some 0 ∧
    ((expiring .live 0).channels.meters[20]).state = .live ∧
    ((expiring .suspect 0).channels.meters[20]).state = .suspect ∧
    ((expiring .stale 255).channels.meters[20]).state = .stale ∧
    ((expiring .stale 255).channels.meters[20]).timer = some 0 := by decide +kernel
theorem test_witness_BoundaryExpiryClosesTheLowestDueGroup :
    0 < img.binLength 0 ∧ 0 < img.epochLength 0 ∧ bounded.inReset = false ∧
    bounded.lines.bounds[(0 : Fin 16)] = some { bin := 3600, epoch := 28800 } ∧
    3600 ≤ bounded.lines.clock.toNat := by decide +kernel
/-- Line 1 with a closing snapshot and an epoch snapshot that wait. -/
def waiting : State := withLine 1 (fun l => { l with
  closing := some (l.closedBin .forming 60 0 5),
  epochSnap := some { epoch := .opened 0, kind := .forming, merged := 255 } }) live
theorem test_witness_GroupCloseReopensMembersAndPostsUpdates :
    (4 : Fin 16) ∉ img.members 0 ∧ (1 : Fin 16) ∈ img.members 0 ∧ (live.books.line 1).closing = none ∧
    (live.books.line 1).epochSnap = none ∧ (waiting.books.line 1).closing.isSome = true ∧
    (waiting.books.line 1).epochSnap.isSome = true ∧
    (5 : Fin 16) ∈ img.members 5 ∧ img.kind 1 = .forming ∧ img.kind 0 = .furnace ∧
    img.channelEnabled 20 = true ∧ (img.channel 20).line ∈ img.members 0 := by decide +kernel
theorem test_witness_ApportionmentSharesTheWholeEnergy :
    let cs : List (Fin 16 × Nat) := [(1, 7000), (2, 5000), (3, 0)]
    let none' : List (Fin 16 × Nat) := [(1, 0), (2, 0)]
    cs.Pairwise (fun a b => a.1 < b.1) ∧ 0 < (cs.map Prod.snd).sum ∧
    none'.Pairwise (fun a b => a.1 < b.1) ∧ (none'.map Prod.snd).sum = 0 ∧ img.kind 5 ≠ .furnace ∧
    img.kind 0 = .furnace ∧ img.parent 1 = some 0 ∧ img.parent 3 = some 0 := by decide +kernel
theorem test_witness_JobCloseSnapshotsPostsAndReopens :
    let s := withLine 1 (fun l => { l with
      job := { l.job with code := 1023 }, jobSnap := some (l.job.snapshot 0) }) live
    (live.books.line 1).jobSnap = none ∧ (live.books.line 1).job.code = 0 ∧
    (s.books.line 1).jobSnap = some (Job.snapshot (Job.opened 0) 0) ∧ (s.books.line 1).job.code ≠ 0 := by
  decide +kernel
theorem test_witness_MatchesDeliverEventsByTheStateTable :
    (live.books.line 4).state = .idle ∧ img.kind 0 = .furnace ∧ (live.books.line 0).state = .running ∧
    img.kind 1 = .forming ∧ img.changeoverDuration 1 = 600 ∧ img.changeoverDuration 5 = 0 ∧
    (changing.books.line 1).state = .changeover ∧ live.lines.handOver = [] ∧
    snapped.lines.handOver ≠ [] ∧ snapped.writer.queue.length < 16 := by decide +kernel
theorem test_witness_CreditsAddByQuantityAndMark :
    (live.books.line 4).state = .idle ∧ (live.books.line 1).state ≠ .idle ∧
    ((changing.books.line 1).credit .forming
      { quantity := .unweighed, amount := 65536, estimated := true, carriedIn := true }).2 = true ∧
    img.kind 1 = .forming ∧ img.kind 0 ≠ .forming ∧
    (let l := { live.books.line 1 with bin := { (live.books.line 1).bin with reprimes := 255 } }
     l.reprimeNotice.2 = true ∧ l.reprimeNotice.1.bin.flags.saturated = true) := by
  decide +kernel
theorem test_witness_ClockWordWriteStepsTheClock :
    let s := clocking 3600
    let n : Notice := { noticeAt 4 3600 with clockDue := true }
    let back := { clocking 0 with lines := { live.lines with clock := 1 } }
    s.inReset = false ∧ s.pass.notice = some n ∧ n.clockDue = true ∧ n.captureDue = false ∧
    s.closesTaken = true ∧ s.setup.noticeWord 4 n.address n.words = some (fullWord 3600) ∧
    mergeBytes s.lines.clock (fullWord 3600) = 3600 ∧
    s.lines.bounds[(0 : Fin 16)] = some { bin := 3600, epoch := 28800 } ∧ (1 : Fin 16) ∈ s.cfg.members 0 ∧
    mergeBytes (clocking 0).lines.clock (fullWord 0) = (clocking 0).lines.clock ∧
    back.closesTaken = true ∧ (mergeBytes back.lines.clock (fullWord 0)).toNat < back.lines.clock.toNat := by
  decide +kernel
/-- A forward step that reaches one group of two: line 5 is closed, the group of line 0 stays. -/
theorem test_witness_ClockWordWriteStepsTheClock_one_group :
    (clocking 900).closesTaken = true ∧ (900#32).toNat < 3600 ∧
    (clocking 900).lines.bounds[(0 : Fin 16)] = some { bin := 3600, epoch := 28800 } ∧
    (clocking 900).lines.bounds[(5 : Fin 16)] = some { bin := 900, epoch := 28800 } ∧
    (1 : Fin 16) ∉ (clocking 900).cfg.members 5 ∧
    answers (exec .clockWordWrite (clocking 900)) (fun t => t.lines.handOver == [(.bin, 5)] &&
      t.lines.lines[1] == live.lines.lines[1]) = true := by decide +kernel

/-- The hold request up. -/
def requesting (m : Image) : State :=
  let s := under m
  { s with intake := { s.intake with holdRequest := true } }
theorem test_witness_UpstreamWriteIsHeldGuardedOrTaken :
    burstWellFormed 0x00400000 (burst [0]).length = true ∧ live.portOpen = true ∧
    2 ^ 32 < (0xFFFFFFFC#32).toNat + 4 * (burst [0, 0]).length ∧
    ((requesting img).portOpen = true ∧ (requesting img).setup.part = .active ∧
      ((requesting img).cfg.window 0).holds 0x00400000 = true ∧
      ((requesting img).cfg.window 0).holds 0x00403FFC = true ∧ (requesting img).intake.holdRequest = true ∧
      (requesting img).pass.spilling = false) ∧
    (live.intake.holdRequest = false ∧ live.guarded 0x00400000 = false ∧ live.guarded 0x10002000 = true ∧
      live.cfg.get 6 = 1) ∧
    ((under passing).portOpen = true ∧ (under passing).guarded 0x10002000 = true ∧
      (under passing).cfg.get 6 ≠ 1) := by decide +kernel
/-- The guard list of the small setup at the ends of its regions and of what it leaves out (R11). -/
theorem test_witness_UpstreamWriteIsHeldGuardedOrTaken_list :
    live.setup.active = some img ∧ live.setup.part = .active ∧
    (applying .drain img).setup.active = some img ∧ (applying .drain img).setup.part = .applying .drain ∧
    img.validate live.setup.blockAddress = none ∧ img.kind 1 ≠ .none ∧ img.ringBase 1 = 0x00801000 ∧
    img.ringSize 1 = 16 ∧
    (live.guarded 0x00801000 ∧ live.guarded 0x00801003 ∧ live.guarded 0x00801040 ∧
      live.guarded 0x0080143F ∧ live.guarded 0x100020FF) ∧
    (live.guarded 0x00801004 = false ∧ live.guarded 0x0080103F = false ∧ live.guarded 0x00801440 = false ∧
      live.guarded 0x10000000 = false ∧ live.guarded 0x10001FFF = false ∧
      img.tallyBase = 0x00100000 ∧ live.guarded 0x00100000 = false ∧ live.guarded 0x001081FF = false) ∧
    (released.setup.part = .fetching ∧ released.setup.active = none ∧
      (inPart .unset released).setup.part = .unset ∧ released.guarded 0x10002000 = false) := by decide +kernel
theorem test_witness_UpstreamReadWaitsOnTheReadHold :
    let s := { live with alerts := { live.alerts with readHold := true } }
    burstWellFormed 0x10002000 [15#4].length = true ∧ s.portOpen = true ∧ s.alerts.readHold = true ∧
    (0x10002000#32).toNat ≤ s.setup.statusAddress ∧
    s.setup.statusAddress < (0x10002000#32).toNat + 4 * [15#4].length ∧
    live.portOpen = true ∧ live.alerts.readHold = false ∧
    2 ^ 32 < (0xFFFFFFFC#32).toNat + 4 * [15#4, 15#4].length ∧
    readWaiting.steady = true ∧ readWaiting.pass.heldRead = some (0x10002000, [15]) ∧
    readWaiting.alerts.readHold = false := by decide +kernel
theorem test_witness_HoldEndsByReleaseOrSpill :
    (held true).steady = true ∧ (held true).pass.heldWrite = some (0x00400000, burst [0]) ∧
    (held true).pass.releaseDue = true ∧ (held false).steady = true ∧
    (held false).pass.holdTimer = some 0 ∧ (held false).pass.releaseDue = false ∧
    ((held false).intake.windows[0]).partialRecord.isSome = true ∧ (held false).cfg.holdEdgeSelect = 2 ∧
    (held false).touchesGuard 0x00400000 1 = false ∧ (held false).touchesGuard 0x10002000 1 = true := by
  decide +kernel

/-- A passthrough write and a record write both request the port. -/
def contended (n : Nat) : State :=
  let s := written 1 (some .recordWrite) loaded
  { s with pass := { s.pass with runCount := n } }
theorem test_witness_ArbiterGrantsByRunCountAndTurn :
    (loaded.pass.slot.isSome = true ∧ loaded.internalChoice none = none ∧ loaded.steady = true ∧
      loaded.pass.port = .free ∧ loaded.withdraws = false ∧
      loaded.choose loaded.tallyRequest = some (.passthrough, 0)) ∧
    ((contended 3).internalChoice none = (contended 4).internalChoice none ∧
      ((contended 3).internalChoice none).isSome = true ∧ (contended 3).pass.runCount < 4 ∧
      ¬ (contended 4).pass.runCount < 4 ∧ (contended 4).pass.slot.isSome = true) ∧
    (live.pass.slot = none ∧ live.internalChoice none = none ∧ live.steady = true ∧ live.pass.port = .free ∧
      live.withdraws = false ∧ live.choose live.tallyRequest = none) ∧
    released.fetchRequest = true ∧
    (let s := { live with alerts := { live.alerts with mirror := some .report } }
     s.fetchRequest = false ∧ s.alerts.mirror = some .report) ∧
    (live.fetchRequest = false ∧ live.alerts.mirror = none ∧ live.pass.turn = .tallyEngine ∧
      live.writerRequest = none) ∧
    (written 1 (some .recordWrite) live).writerRequest.isSome = true ∧
    (posted .readWait live).tallyRequest = some .reserveRead := by decide +kernel
theorem test_witness_PassthroughWriteGrantIssuesANotice :
    let s (a : Nat) (r : Option Reservation) : State := { loaded with
      pass := { loaded.pass with slot := some (.write a (burst [0])) },
      tally := { loaded.tally with reservation := r } }
    let r : Reservation := { entry := 1025, intact := true }
    ((s 0x00108020 (some r)).steady = true ∧ (s 0x00108020 (some r)).withdraws = false ∧
      (s 0x00108020 (some r)).choose (s 0x00108020 (some r)).tallyRequest = some (.passthrough, 0) ∧
      noticeTouches ((s 0x00108020 (some r)).cfg.tallyBase + 32 * 1025) 0x00108020 (burst [0]) = true ∧
      noticeTouches ((s 0x0010803C (some r)).cfg.tallyBase + 32 * 1025) 0x0010803C (burst [0]) = true ∧
      noticeTouches ((s 0x00108040 (some r)).cfg.tallyBase + 32 * 1025) 0x00108040 (burst [0]) = false) ∧
    ((s 0x00108020 none).tally.reservation = none ∧ (s 0x00108020 none).cfg.windowAt 0x00108020 = none) ∧
    (let marked : State := { loaded with pass := { loaded.pass with spilling := true } }
     marked.steady = true ∧ marked.withdraws = false ∧ marked.setup.part = .active ∧
     marked.choose marked.tallyRequest = some (.passthrough, 0) ∧ marked.cfg.windowAt 0x00400000 ≠ none ∧
     marked.pass.spilling = true ∧ loaded.pass.spilling = false) ∧
    (let unset : State := inPart .unset loaded
     unset.steady = true ∧ unset.withdraws = false ∧ unset.setup.part = .unset ∧
     unset.choose unset.tallyRequest = some (.passthrough, 0)) ∧
    (let q := { loaded with pass := { loaded.pass with slot := some (.read 0 [15]) } }
     q.steady = true ∧ q.pass.port = .free ∧ q.withdraws = false ∧
     q.choose q.tallyRequest = some (.passthrough, 0)) := by decide +kernel
theorem test_witness_InternalGrantsPutTheRequestOnThePort :
    (posted .readWait live).tally.queue = update :: [] ∧ (broken 0).tally.queue = update :: [] ∧
    (broken 0).tally.computed = some (List.replicate 8 0) ∧
    (written 1 (some .recordWrite) live).writer.queue = record 1 :: [] ∧
    (written 1 (some .recordWrite) live).writer.step = some .recordWrite ∧
    (written 1 (some .indexWrite) live).writer.step = some .indexWrite ∧
    (written 1 (some .recordRetry) live).writer.step = some .recordRetry ∧
    (written 1 (some .indexRetry) live).writer.step = some .indexRetry ∧
    (let s := withRing 2 (fun r => { r with initOwed := true }) live
     s.writer.step = none ∧ (s.writer.rings[(2 : Fin 16)]).initOwed = true ∧
     ∀ k : Fin 16, k < 2 → (s.writer.rings[k]).initOwed = false) ∧
    live.writer.step = none ∧ (∀ k : Fin 16, (live.writer.rings[k]).initOwed = false) := by decide +kernel
theorem test_witness_BrokenReservationIsWithdrawnWithALoss :
    (broken 0).steady = true ∧ (broken 0).pass.port = .free ∧ (broken 0).withdraws = true ∧
    (broken 6).withdraws = true ∧ (broken 6).tally.losses + 1 < 8 ∧
    (broken 7).withdraws = true ∧ ¬ (broken 7).tally.losses + 1 < 8 := by decide +kernel
theorem test_witness_PassthroughResponseGoesUpstream :
    (reading0.steady = true ∧ reading0.pass.port = .passthrough ∧
      reading0.pass.slot = some (.read 0x10002000 [15]) ∧ [6#32].length = [15#4].length) ∧
    (let s := { loaded with pass := { loaded.pass with port := .passthrough } }
     s.steady = true ∧ s.pass.port = .passthrough ∧
     s.pass.slot = some (.write 0x00400000 (burst reading))) := by decide +kernel
theorem test_witness_SetupCaptureMergesEnabledBytes :
    let n : Notice := { noticeAt 20 5 with captureDue := true }
    capturing.inReset = false ∧ capturing.pass.notice = some n ∧ n.captureDue = true ∧ n.address % 4 = 0 ∧
    capturing.setup.shadow.wf = true ∧ n.words[0]? = some (fullWord 5) ∧
    n.address + 4 * 0 = capturing.setup.blockAddress + 4 * 20 := by decide +kernel
theorem test_witness_GenerationWriteStartsOrPendsAnApply :
    (generating 2 live).inReset = false ∧ (generating 2 live).pass.notice =
      some { noticeAt 1 2 with generationDue := true } ∧ (noticeAt 1 2).captureDue = false ∧
    (noticeAt 1 2).clockDue = false ∧
    (generating 2 live).setup.generation ≠ some ((generating 2 live).setup.shadow.get 1) ∧
    (generating 1 live).setup.generation = some ((generating 1 live).setup.shadow.get 1) ∧
    (generating 2 (inPart .unset live)).setup.part = .unset ∧
    (generating 2 released).setup.part = .fetching ∧
    (generating 2 (applying .drain img)).setup.part = .applying .drain ∧
    (generating 2 (applying .drain img)).setup.candidate = some img := by decide +kernel
theorem test_witness_ConsumerIndexIsTestedAgainstTheReservedProducer :
    let n : Notice := { noticeAt 0 16 with address := 0x00801004, consumerDue := true }
    let s := withRing 1 (fun r => { r with producer := 16, reserved := true }) live
    (consuming 16).inReset = false ∧ (consuming 16).pass.notice = some n ∧ n.consumerDue = true ∧
    (16#16 + 1 - 1).toNat ≤ s.cfg.ringSize 1 ∧ ¬ (16#16 + 1 - 0).toNat ≤ s.cfg.ringSize 1 ∧
    (s.writer.rings[(1 : Fin 16)]).reserved = true ∧ (fullWord 16).enables.getLsbD 0 = true ∧
    ({ data := 0, enables := 12 } : WriteWord).enables.getLsbD 1 = false ∧
    img.validate 0x10000000 = none ∧ img.kind 1 ≠ .none ∧ 0x00801004 = img.ringBase 1 + 4 ∧
    img.consumerLine 0x00801004 = some 1 ∧ img.consumerLine 0x00801000 = none ∧
    img.consumerLine 0x00801008 = none := by decide +kernel
theorem test_witness_ReadClearsExactlyTheReturnedBits :
    (observed 0b10).steady = true ∧ (observed 0b10).pass.observation = some 0b10 ∧
    (observed 0b10).setup.part ≠ .fetching ∧ (0b10#32).truncate 22 ≠ 0#22 ∧
    (observed 0x00400000).pass.observation = some 0x00400000 ∧ (0x00400000#32).truncate 22 = 0#22 ∧
    (inPart .fetching (observed 0b10)).steady = true := by decide +kernel
theorem test_witness_CommandsAreRefusedWaitOrDoNothing :
    let code (s : State) : Nat := (s.setup.shadow.get 2).toNat % 256
    (∀ s ∈ [commanded 0x100 0 live, commanded 0x106 0 live, commanded 0x1FF 0 live],
      s.inReset = false ∧ s.closesTaken = true ∧ s.pass.notice = some commandNotice ∧
      s.setup.part = .active) ∧
    code (commanded 0x100 0 live) = 0 ∧ code (commanded 0x106 0 live) = 6 ∧
    code (commanded 0x1FF 0 live) = 255 ∧ code (commanded 0x101 0 (inPart .unset live)) ≠ 0 ∧
    (commanded 0x101 0 (inPart .unset live)).setup.part = .unset ∧
    (commanded 0x100 0 (applying .validate img)).setup.part = .applying .validate := by decide +kernel

/-- A command word delivered in ACTIVE, with its argument. -/
theorem test_witness_commands_delivered :
    let s := commanded 0x103 256 live
    (s.inReset = false ∧ s.closesTaken = true ∧ s.pass.notice = some commandNotice ∧
      commandNotice.commandDue = true ∧ commandNotice.captureDue = false ∧
      commandNotice.clockDue = false ∧ commandNotice.generationDue = false) ∧
    s.setup.part = .active ∧ s.setup.shadow.get 2 = 0x103 ∧ s.setup.shadow.get 3 = 256 := by decide +kernel
theorem test_witness_CloseBinsClosesTheNamedGroups :
    ((0x101#32).toNat % 256 = 1 ∧ 0x21#32 ≠ 0 ∧ (0x21#32).toNat < 65536 ∧
      ∀ h : Fin 16, (0x21#32).getLsbD h = true → img.isHead h = true) ∧
    ((0x2#32).getLsbD 1 = true ∧ img.isHead 1 = false) := by decide +kernel
theorem test_witness_RestartClearsTheAccounts :
    (0x102#32).toNat % 256 = 2 ∧ img.channelEnabled 20 = true ∧ img.channelEnabled 0 = false ∧
    (commanded 0x102 0 (requesting img)).intake.holdRequest = true ∧
    (commanded 0x102 0 (requesting img)).pass.spilling = false ∧
    (commanded 0x102 0 (held false)).pass.heldWrite.isSome = true := by decide +kernel
theorem test_witness_ReprimeAndTransferActOnWhatTheyName :
    (0x103#32).toNat % 256 = 3 ∧ (20#32).toNat = (20 : Fin 256).val ∧ img.channelEnabled 20 = true ∧
    (255#32).toNat = (255 : Fin 256).val ∧ img.channelEnabled 255 = false ∧ 255 < (256#32).toNat ∧
    (0x104#32).toNat % 256 = 4 := by decide +kernel
theorem test_witness_InjectCheckFaultSetsTheWindowFlag :
    (0x105#32).toNat % 256 = 5 ∧ (3#32).toNat = (3 : Fin 4).val ∧ 3 < (4#32).toNat ∧
    (commanded 0x105 3 (inPart .unset live)).setup.part = .unset ∧
    (commanded 0x105 3 (applying .drain img)).setup.part = .applying .drain := by decide +kernel
theorem test_witness_RecordTakeHandlesTheHeadRecord :
    (∀ c ∈ [317, 5], (queued c).steady = true ∧ (queued c).setup.part = .active ∧
      (queued c).channels.pause = false ∧ (queued c).channels.inHand = none ∧
      (queued c).intake.queue = tap c :: []) ∧
    (queued 317).cfg.entryOf 317 = some 20 ∧ (queued 5).cfg.entryOf 5 = none := by decide +kernel
/-- The removal that brings the queue to the low-water mark of 16, and the one before it (R35). -/
theorem test_witness_RecordTakeHandlesTheHeadRecord_marks :
    let s (k : Nat) (spilling : Bool) : State :=
      let u := requesting img
      { u with
        intake := { u.intake with queue := List.replicate k (tap 317) },
        pass := { u.pass with
          spilling := spilling, heldWrite := if spilling then none else some (0x00400000, burst [0]) } }
    ((s 17 true).steady = true ∧ (s 17 true).intake.holdRequest = true ∧
      (s 17 true).intake.queue = tap 317 :: List.replicate 16 (tap 317) ∧
      (List.replicate 16 (tap 317)).length ≤ (s 17 true).cfg.lowWater ∧ (s 17 true).pass.spilling = true ∧
      (s 17 true).cfg.selectsBoth .spilling = true) ∧
    ((s 17 false).steady = true ∧ (s 17 false).pass.spilling = false ∧
      (s 17 false).pass.heldWrite.isSome = true) ∧
    ¬ (List.replicate 17 (tap 317)).length ≤ (s 18 false).cfg.lowWater ∧
    answers (exec .recordTake (s 17 true)) (fun t => !t.pass.spilling && !t.intake.holdRequest) = true ∧
    answers (exec .recordTake (s 17 false)) (fun t => t.pass.releaseDue) = true ∧
    answers (exec .recordTake (s 18 false)) (fun t => !t.pass.releaseDue && t.intake.holdRequest) = true := by
  decide +kernel

/-- A 16-bit meter at 65000, with a candidate of 40000. -/
def meter (p : MeterStanding) (count : Nat) : Meter :=
  { Meter.hardReset with
    state := p, baseline := 65000, candidate := some 40000, suspectCount := some count, lastSequence := some 9 }
theorem test_witness_MeterMachineFollowsTheStateTable :
    let c := img.channel 7
    let r (seq : BitVec 8) (tags : List Word) : TapRecord := { tap 40 with sequence := seq, tags := tags }
    ((r 10 [3]).quality = .test ∧ (r 10 [2]).quality = .fault ∧ (r 10 []).quality ≠ .fault ∧
      (meter .live 0).lastSequence = some 9 ∧ (10#8 - 9).toNat = 1 ∧ (137#8 - 9).toNat = 128 ∧
      (136#8 - 9).toNat = 127 ∧ (11#8 - 9).toNat = 2 ∧ (9#8 - 9).toNat = 0 ∧
      { meter .unseen 0 with lastSequence := none }.lastSequence = none) ∧
    ((r 10 [4, 1]).tags = 4 :: [1] ∧ (r 10 [4]).quality = .fault ∧ (r 10 [0x101]).quality = .estimated ∧
      (r 10 [0]).quality = .good ∧ (r 10 [255]).quality = .fault) ∧
    ((meter .live 0).baseline < 2 ^ c.width ∧ (65000 + c.ceiling) % 65536 < 2 ^ c.width ∧
      (1464 + 2 ^ c.width - 65000) % 2 ^ c.width = c.ceiling ∧
      2 ^ c.width - (64950 + 2 ^ c.width - 65000) % 2 ^ c.width = c.tolerance ∧
      c.tolerance < 2 ^ c.width - (64949 + 2 ^ c.width - 65000) % 2 ^ c.width ∧
      c.ceiling < (64949 + 2 ^ c.width - 65000) % 2 ^ c.width) ∧
    ((meter .suspect 2).candidate = some 40000 ∧ (meter .suspect 2).suspectCount = some 2 ∧
      (42000 + 2 ^ c.width - 40000) % 2 ^ c.width = c.ceiling ∧ 3 ≤ 2 + 1 ∧ 1 + 1 < 3 ∧
      c.ceiling < (42001 + 2 ^ c.width - 40000) % 2 ^ c.width) ∧
    c.kind = .energy ∧ (img.channel 31).kind = .massDirect ∧
    (Image.channel [(200, 0x20000)] 0).kind = .massCount := by
  decide +kernel
theorem test_witness_HandOversFillTheWriterQueue :
    let both := withLine 1 (fun l => { l with
      epochSnap := some { epoch := .opened 0, kind := .forming, merged := 0 },
      jobSnap := some (l.job.snapshot 60) }) snapped
    let list (k : SnapshotKind) : State := { both with lines := { both.lines with handOver := [(k, 1)] } }
    snapped.inReset = false ∧ (clocking 3600).pass.notice.isSome = true ∧
    (holding { noticeAt 4 0 with clockDue := true } snapped).inReset = false ∧
    snapped.lines.handOver = (.bin, 1) :: [] ∧ snapped.writer.queue.length < 16 ∧
    (snapped.lines.lines[(1 : Fin 16)]).waits .bin = true ∧
    (snapped.lines.lines[(1 : Fin 16)]).closing.isSome = true ∧
    ((list .epoch).lines.lines[(1 : Fin 16)]).waits .epoch = true ∧
    ((list .epoch).lines.lines[(1 : Fin 16)]).epochSnap.isSome = true ∧
    ((list .job).lines.lines[(1 : Fin 16)]).waits .job = true ∧
    ((list .job).lines.lines[(1 : Fin 16)]).jobSnap.isSome = true ∧ missing.steady = true ∧
    missing.tally.misses = missed :: [] ∧ missing.writer.queue.length < 16 := by decide +kernel
theorem test_witness_TakeIntoHandChecksRingAndSpace :
    let full := withRing 1 (fun r => { r with producer := 15, shadow := 65535 }) (written 1 none live)
    (∀ s ∈ [written 1 none live, written 4 none live, full], s.steady = true ∧ s.writer.step = none ∧
      (∀ n : Fin 16, (s.writer.rings[n]).initOwed = false) ∧ s.pass.port = .free) ∧
    (written 4 none live).writer.queue = record 4 :: [] ∧ live.cfg.kind 4 = .none ∧
    full.writer.queue = record 1 :: [] ∧ full.cfg.kind 1 ≠ .none ∧
    ((full.writer.rings[(1 : Fin 16)]).producer - (full.writer.rings[(1 : Fin 16)]).shadow).toNat =
      full.cfg.ringSize 1 := by decide +kernel
theorem test_witness_RingWritesPublishOrDiscard :
    (∀ k ∈ [WriteStep.recordWrite, .recordRetry],
      let s := carrying .recordWrite (written 1 (some k) live)
      s.steady = true ∧ s.pass.port = .internal .recordWrite (.read 0 []) ∧ s.writer.queue = record 1 :: [] ∧
      s.writer.step = some k) ∧
    (∀ k ∈ [WriteStep.indexWrite, .indexRetry],
      let s := carrying .indexWrite (written 1 (some k) live)
      s.steady = true ∧ s.pass.port = .internal .indexWrite (.read 0 []) ∧ s.writer.queue = record 1 :: [] ∧
      s.writer.step = some k) ∧
    (carrying (.initialisingWrite 1) live).steady = true := by decide +kernel
/-- The shadow one ahead of the producer falls back when a record write fails for the second time (R115). -/
theorem test_discarded_record_sets_the_shadow_back :
    answers (exec (.recordWriteResponse .error) (carrying .recordWrite
        (withRing 1 (fun r => { r with reserved := true, shadow := 1 }) (written 1 (some .recordRetry) live))))
      (fun t => t.writer.rings[1].shadow == 0 && t.writer.rings[1].pendingLost == 1) = true := by
  decide +kernel
theorem test_witness_CompletedRecordPassesItsCheck :
    (record 1).words.length = 16 ∧ 255 ≤ 255 := by decide
theorem test_witness_TallyCycleTakesReadsAndWrites :
    ((posted .idle live).steady = true ∧ (posted .idle live).tally.state = .idle ∧
      (posted .idle live).tally.queue = update :: [] ∧ (posted .idle live).postingHeld = false) ∧
    (backedOff.steady = true ∧ backedOff.tally.state = .backoff ∧ backedOff.tally.backoff = some 0) ∧
    (let s := carrying .conditionalWrite (posted .writeWait live)
     s.steady = true ∧ s.pass.port = .internal .conditionalWrite (.read 0 []) ∧ s.tally.queue = update :: []) := by
  decide +kernel
theorem test_witness_UpdatesArePostedMissedOrTurnedAway :
    live.tally.queue.length < 32 ∧ ¬ (List.replicate 32 update).length < 32 ∧
    (∃ e ∈ missing.tally.misses, e.entry = update.entry) ∧
    (∀ e ∈ missing.tally.misses, e.entry ≠ 3) ∧ missing.tally.misses.length < 16 ∧
    ¬ (List.replicate 16 missed).length < 16 ∧ (∀ e ∈ List.replicate 16 missed, e.entry ≠ 3) := by
  decide +kernel
theorem test_witness_ReserveReadFormsTheComputedEntry :
    let s := carrying .reserveRead (posted .readOut live)
    let locked := (Vector.replicate 8 (0 : Word)).set 0 0x01000000
    s.steady = true ∧ s.pass.port = .internal .reserveRead (.read 0 []) ∧ s.tally.queue = update :: [] ∧
    ((Vector.replicate 8 (0 : Word))[0]).getLsbD 24 = false ∧ (locked[0]).getLsbD 24 = true ∧
    s.tally.losses + 1 < 8 ∧
    ¬ ({ s with tally := { s.tally with losses := 7 } } : State).tally.losses + 1 < 8 := by decide +kernel
theorem test_witness_CompleteRecordIsCheckedAdmittedAndQueued :
    let bad : List Word := [0x5C10032A, 0, 0]
    let other : List Word := [0x5C10032A, 0xA0BE0007, 0]
    (live.desk.window 0).inject = false ∧ onesSum reading = 65535 ∧ onesSum bad ≠ 65535 ∧
    onesSum other = 65535 ∧ img.admits (tapRecordOf reading).channel = true ∧
    img.admits (tapRecordOf other).channel = false ∧ live.desk.intake.queue.length < 64 ∧
    ¬ (List.replicate 64 (tap 317)).length < 64 ∧
    ((live.desk.setWindow 3 { live.desk.window 3 with inject := true }).window 3).inject = true := by
  decide +kernel
theorem test_witness_WindowBurstsFormRecordsOrStray :
    let last := (img.window 0).base + 4 * ((img.window 0).size - 1)
    let p : Partial := { words := reading.take 2, length := 3, expected := 0x00400008 }
    (img.windowAt 0x003FFFFC = none ∧ img.windowAt 0x00400000 = some 0 ∧ img.windowAt 0x00403FFC = some 0 ∧
      img.windowAt 0x00404000 = none) ∧
    ((live.desk.window 0).partialRecord = none ∧ headerLength (fullWord 0) = none ∧
      headerLength (fullWord 0x5C10032A) = some 3 ∧ last = 0x00403FFC ∧
      last < 0x00403FF8 + 4 * (3 - 1) ∧ 0x00403FF4 + 4 * (3 - 1) ≤ last ∧
      (∀ u ∈ burst reading, u.enables = 15) ∧ (burst (reading.take 2)).length < 3 ∧
      markerWord (fullWord 0x5C000000) = true ∧ headerLength (fullWord 0x5C000000) = none) ∧
    ((assembling.desk.window 0).partialRecord = some p ∧ p.words.length < p.length ∧
      (burst [0]).length = p.length - p.words.length) ∧
    (let missing := p.length - p.words.length
     (burst [0, 0]).drop missing = fullWord 0 :: [] ∧ markerWord (fullWord 0) = false ∧
     (burst [0, 0x5C000000]).drop missing = fullWord 0x5C000000 :: [] ∧
     (burst [0, 0x5C10032A]).drop missing = fullWord 0x5C10032A :: [] ∧
     ∀ u ∈ (burst [0, 0]).take missing, u.enables = 15) := by decide +kernel

/-- A matcher that tests the first word of a burst. -/
def matcher : Matcher :=
  { enabled := true, base := 0x00500000, size := 16, offset := 0, mask := 1, expected := (crc16 [0]).toNat,
    action := .lineStop, target := 1, codeOffset := 0, weightOffset := 0 }
theorem test_witness_CrcOfTheSelectedWordsDecidesAMatch :
    matcher.matched 0x00500000 (burst [0]) = true ∧ matcher.matched 0x0050003C (burst [0]) = true ∧
    matcher.matched 0x00500040 (burst [0]) = false ∧ matcher.matched 0x00500000 (burst [1]) = false ∧
    ∀ i : Fin 16, (img.matcher i).matched 0x00500000 (burst [0]) = false := by decide +kernel
theorem test_witness_FetchBurstsFillTheShadow :
    ∀ k ∈ [0, 126, 127], (fetching k).steady = true ∧ (fetching k).setup.part = .fetching ∧
      (fetching k).pass.port = .internal .fetch (.read 0 []) ∧ (fetching k).setup.shadow.wf = true := by
  decide +kernel
theorem test_witness_FetchEndsInstalledOrRejected :
    (∀ m ∈ [img, []], (fetched img m).steady = true ∧ (fetched img m).setup.part = .fetching ∧
      (fetched img m).setup.fetchPosition = 128 ∧ (fetched img m).setup.candidate = some m) ∧
    img.validate (fetched img img).setup.blockAddress = none ∧
    Image.validate [] (fetched img []).setup.blockAddress = some { code := 1, index := 0 } ∧
    (fetched img img).setup.shadow.get 1 = img.get 1 ∧ img.get 1 ≠ Image.get [] 1 ∧
    (img.channel 20).enabled = true ∧ (img.channel 0).enabled = false ∧ img.kind 1 ≠ .none ∧ img.kind 4 = .none ∧
    img.isHead 0 = true ∧ img.isHead 1 = false := by decide +kernel
theorem test_witness_ValidationAndQuiesceLeadToTheForcedClose :
    (∀ m ∈ [img, []], (applying .validate m).steady = true ∧ (applying .validate m).closesTaken = true ∧
      (applying .validate m).setup.part = .applying .validate ∧
      (applying .validate m).setup.candidate = some m) ∧
    img.validate live.setup.blockAddress = none ∧
    Image.validate [] live.setup.blockAddress = some { code := 1, index := 0 } ∧
    (let s := applying .quiesce (img.set 5 0x00200000)
     s.steady = true ∧ s.setup.part = .applying .quiesce ∧ s.closesTaken = true ∧
     s.channels.inHand = none ∧ s.writer.queue = [] ∧ s.lines.handOver = [] ∧ s.tally.queue = [] ∧
     s.tally.reservation = none ∧ (img.set 5 0x00200000).tallyBase ≠ img.tallyBase) ∧
    live.setup.waiting = none ∧ live.setup.pendingApply = false ∧
    leavingRing img (img.set 143 32) 1 = true ∧ lineChanges img (img.set 157 450) 5 = true := by decide +kernel
/-- After a failed validation the waiting CLOSE_BINS is carried out, and then the pending apply starts (R150). -/
theorem test_witness_ValidationAndQuiesceLeadToTheForcedClose_both :
    let u : State := { live with
      setup := { live.setup with waiting := some (0x101, 0x20), pendingApply := true } }
    u.setup.waiting = some (0x101, 0x20) ∧ u.setup.pendingApply = true ∧
    u.afterApply.lines.handOver = [(.bin, 5)] ∧ u.afterApply.alerts.commandResult.result = .done ∧
    u.afterApply.setup.part = .applying .validate ∧ u.afterApply.setup.pendingApply = false := by decide +kernel
theorem test_witness_InstallationPutsTheCandidateInForce :
    let new := (img.set 156 0).set 157 0
    let s := applying .drain new
    s.steady = true ∧ s.setup.part = .applying .drain ∧ s.closesTaken = true ∧ s.setup.candidate = some new ∧
    s.writer.queue = [] ∧ s.lines.handOver = [] ∧ s.cfg.kind 5 ≠ new.kind 5 ∧ s.cfg.kind 1 = new.kind 1 ∧
    new.kind 5 = .none ∧ s.setup.active.isSome = true ∧ s.cfg.reportInterval = new.reportInterval ∧
    s.cfg.window 0 = new.window 0 := by decide +kernel
/-- A setup with window 0 disabled, other marks, the selects of counter 1 exchanged and of counter 3 changed, entry
20 disabled, entry 8 enabled, entry 7 on another line and another report interval. -/
def replaced : Image :=
  ((((((((img.set 33 0).set 7 15).set 8 10).set 12 0x23).set 14 7).set 280 0).set 232 2684620801).set 228
    2415919144).set 15 6
/-- A part at its installation, with a burst that waits and 12 records. -/
def replacing (spilling : Bool) : State :=
  let s := applying .drain replaced
  { s with
    intake := { s.intake with holdRequest := true, queue := List.replicate 12 (tap 317) },
    pass := { s.pass with heldWrite := some (0x00400000, burst [0]), spilling := spilling } }
theorem test_witness_InstallationPutsTheCandidateInForce_changes :
    ((replacing true).steady = true ∧ (replacing true).setup.part = .applying .drain ∧
      (replacing true).closesTaken = true ∧ (replacing true).setup.candidate = some replaced) ∧
    (replaced.windowAt 0x00400000 = none ∧ 12 < replaced.highWater ∧ replaced.lowWater < 12) ∧
    (img.firstClass 1 = replaced.secondClass 1 ∧ img.secondClass 1 = replaced.firstClass 1 ∧
      img.firstClass 1 ≠ replaced.firstClass 1 ∧ img.firstClass 3 ≠ replaced.firstClass 3 ∧
      img.firstClass 3 ≠ replaced.secondClass 3 ∧ img.firstClass 0 = replaced.firstClass 0) ∧
    ((img.channel 20).enabled = true ∧ (replaced.channel 20).enabled = false) ∧
    ((img.channel 8).enabled = false ∧ (replaced.channel 8).enabled = true) ∧
    ((img.channel 7).line ≠ (replaced.channel 7).line ∧ (replaced.channel 7).enabled = true) ∧
    img.channel 31 = replaced.channel 31 ∧ img.reportInterval ≠ replaced.reportInterval := by decide +kernel
/-- The hold request stays between the marks; the burst, now outside every window, is marked for its release (R7);
the selects of a counter are compared as a set (R180). -/
theorem test_installation_changes_each_unit :
    answers (exec .installation (replacing false)) (fun t =>
      t.intake.holdRequest && t.pass.releaseDue && t.channels.meters[20].state == .retired &&
      t.channels.meters[8].state == .unseen && t.channels.meters[7].state == .unseen &&
      t.alerts.reportTimer == some 6) = true := by decide +kernel
theorem test_witness_ValidSetupKeepsEntriesAndSpansApart :
    img.validate 0x10000000 = none ∧ (img.window 0).enabled = true ∧ img.channelEnabled 7 = true ∧
    img.kind 1 = .forming ∧ img.parent 1 = some 0 ∧ img.kind 0 = .furnace := by decide +kernel
/-- The small setup with another word and another check word. -/
def altered (i : Nat) (w check : Word) : Image := (img.set i w).set 31 check
/-- A setup that fails at each of the first steps: magic, check word, header words 8 and 17, window 0 (R151). -/
theorem test_witness_ValidSetupKeepsEntriesAndSpansApart_early_steps :
    (img.set 0 0).validate 0x10000000 = some { code := 1, index := 0 } ∧
    (img.set 20 1).validate 0x10000000 = some { code := 2, index := 0 } ∧
    (altered 8 48 49450).validate 0x10000000 = some { code := 3, index := 8 } ∧
    (altered 17 0x2B 49481).validate 0x10000000 = some { code := 3, index := 17 } ∧
    (altered 32 0x00400002 49480).validate 0x10000000 = some { code := 4, index := 0 } := by decide +kernel
/-- A setup that fails at each of the last steps: matcher 2, line 5, channel entry 30 and the tally base (R151). -/
theorem test_witness_ValidSetupKeepsEntriesAndSpansApart_late_steps :
    (altered 53 0x80000000 16714).validate 0x10000000 = some { code := 5, index := 2 } ∧
    (altered 159 17 49481).validate 0x10000000 = some { code := 6, index := 5 } ∧
    (altered 322 0 54482).validate 0x10000000 = some { code := 7, index := 30 } ∧
    (altered 5 0x00100004 49478).validate 0x10000000 = some { code := 8, index := 0 } := by decide +kernel
theorem test_witness_ReportsLatchCountAndDriveAlert :
    img.firstClass 0 = DefectClass.checkFail.code ∧ img.secondClass 1 = DefectClass.admitDrop.code ∧
    65535 ≤ (counted.alerts.counters[(0 : Fin 4)]).count + 65532 ∧ img.selectsBoth .holding = true ∧
    passing.selectsBoth .anyStale = true ∧ (img.set 17 0x15).selectsBoth .holding = false ∧
    (observed 0).alertOutput = true ∧ live.alertOutput = false := by decide +kernel
theorem test_witness_MirrorAnswersRequestTheNextOwedGroup :
    let s := carrying (.mirror .latched) live
    let f := carrying (.mirror .latched) released
    s.steady = true ∧ s.pass.port = .internal (.mirror .latched) (.read 0 []) ∧ s.setup.part ≠ .fetching ∧
    s.alerts.has .memoryFault = false ∧
    ({ s with alerts := s.alerts.latch .memoryFault } : State).alerts.has .memoryFault = true ∧
    f.steady = true ∧ f.setup.part = .fetching := by decide +kernel
theorem test_witness_invariants_with_a_next_state :
    ReservationOnlyInService State.reset ∧ RingSpace State.reset ∧ State.reset.setup.part = .fetching ∧
    answers (step { State.reset with pending := [.resetRelease 0] }) (fun t => t.pending.isEmpty) = true :=
  ⟨fun _ => rfl,
   ⟨fun _ h => (nomatch h), fun _ => rfl, fun h => (nomatch h),
    fun h => h.elim (fun h => (nomatch h)) (fun h => (nomatch h)), by decide +kernel⟩,
   rfl, by decide +kernel⟩

/-- A TICK with a mirror write in hand, with groups owed and none in hand, and while FETCHING (R171, R173). -/
theorem test_witness_OwedGroupsAreRequestedByEveryStep :
    let owing (s : State) : State := { s with
      alerts := { s.alerts with owed := { s.alerts.owed with counters := true, lostTally := true } } }
    let inHand : State := { owing live with alerts := { (owing live).alerts with mirror := some .report } }
    let ticks (s : State) (g : Option Group) : Bool :=
      answers (exec .tickPulse s) (fun t => decide (t ≠ s) && decide (t.alerts.mirror = g))
    ticks inHand (some .report) = true ∧ (owing live).alerts.mirror = none ∧
    ticks (owing live) (some .counters) = true ∧ released.alerts.mirror = none ∧
    released.setup.part = .fetching ∧ ticks released none = true := by decide +kernel

/-! ### Edges, restarting rings, selections and the limits of the notices -/

/-- A burst at a port that is not ready, a record with none queued, a response with none on the port. -/
theorem test_witness_EveryPortCommandAnswersNext_unmet :
    (Instr.upstreamWrite 0 (burst [0])).wellFormed = true ∧ loaded.portOpen = false ∧
    answers (exec (.upstreamWrite 0 (burst [0])) loaded) (fun t => t == loaded) = true ∧
    live.intake.queue = [] ∧ answers (exec .recordTake live) (fun t => t == live) = true ∧
    live.pass.port = .free ∧ answers (exec (.mirrorWriteResponse .error) live) (fun t => t == live) = true := by
  decide +kernel

/-- Line 4, NONE in the small setup, with a ring. -/
def founding : Image := (((img.set 152 2).set 153 3600).set 154 0x00806000).set 155 16
/-- A record of line 4 in the writer queue during an apply that gives the line a ring. -/
def founded (p : Phase) : State := written 4 none (applying p founding)
/-- The record is waited out in both phases, though no ring leaves (R110, R120; log entry 33). -/
theorem test_witness_ValidationAndQuiesceLeadToTheForcedClose_rings :
    (ringRestarts img founding 4 = true ∧ leavingRing img founding 4 = false ∧
      ringRestarts img (img.set 143 32) 1 = true ∧ leavingRing img (img.set 140 0) 1 = true ∧
      ringRestarts img (img.set 140 0) 1 = false ∧ ringRestarts img img 1 = false) ∧
    answers (exec .quiesceMet (founded .quiesce)) (fun t => t == founded .quiesce) = true ∧
    answers (exec .installation (founded .drain)) (fun t => t == founded .drain) = true ∧
    answers (exec .installation (applying .drain founding))
      (fun t => t.writer.rings[4].initOwed && t.setup.part == .active) = true := by decide +kernel
/-- A record in hand, and an update in the queue where the tally base changes, are waited out (R157). -/
theorem test_witness_ValidationAndQuiesceLeadToTheForcedClose_waits :
    let s := applying .quiesce (img.set 5 0x00200000)
    let busy : State := { s with channels := { s.channels with inHand := some (tap 317) } }
    s.setup.active = some img ∧ busy.channels.inHand.isSome = true ∧
    (posted .idle s).tally.queue ≠ [] ∧ (img.set 5 0x00200000).tallyBase ≠ img.tallyBase ∧
    answers (exec .quiesceMet (posted .idle s)) (fun t => t == posted .idle s) = true := by decide +kernel
/-- The meter of entry 20 STALE alone, under select both. -/
def staleAlone : State := expiring .stale 1
theorem test_witness_StaleExpiryEntersStaleOrRaisesTheGap_edge :
    (expiring .live 0).channels.anyStale = false ∧
    answers (exec (.staleExpiry 20) (expiring .live 0))
      (fun t => t.alerts.has .staleEdge && t.alerts.owed.realTime) = true ∧
    answers (exec (.staleExpiry 20)
        (withMeter 7 (fun m => { m with state := .stale, timer := some 9 }) (expiring .live 0)))
      (fun t => t.alerts.has .staleEnter && !t.alerts.has .staleEdge) = true := by decide +kernel
/-- ANY_STALE falls at REPRIME, at RESTART, at a record and at an installation (R168). -/
theorem test_witness_stale_edge_at_each_fall :
    staleAlone.channels.anyStale = true ∧ staleAlone.cfg.selectsBoth .anyStale = true ∧
    answers (exec .reprime (commanded 0x103 20 staleAlone))
      (fun t => t.alerts.has .staleEdge && !t.channels.anyStale) = true ∧
    answers (exec .restart (commanded 0x102 0 staleAlone))
      (fun t => t.alerts.has .staleEdge && !t.channels.anyStale) = true ∧
    answers (exec .recordTake { staleAlone with intake := { staleAlone.intake with queue := [tap 317] } })
      (fun t => t.alerts.has .staleEdge && !t.channels.anyStale) = true := by decide +kernel
/-- The installation latches by the selects of the new setup (log entry 20). -/
theorem test_witness_InstallationPutsTheCandidateInForce_edge :
    let s (m : Image) : State := withMeter 20 (fun x => { x with state := .stale }) (applying .drain m)
    (s (img.set 280 0)).channels.anyStale = true ∧
    answers (exec .installation (s (img.set 280 0)))
      (fun t => t.alerts.has .staleEdge && !t.channels.anyStale) = true ∧
    answers (exec .installation (s ((img.set 280 0).set 17 0x15)))
      (fun t => !t.alerts.has .staleEdge && !t.channels.anyStale) = true := by decide +kernel
/-- A burst held at a guarded region with a partial record beside it, SPILLED counted by counter 0. -/
def spilling (m : Image) : State := { held false with
  setup := { live.setup with active := some (m.set 11 8) },
  pass := { (held false).pass with heldWrite := some (0x10002000, burst [0]) } }
theorem test_witness_HoldEndsByReleaseOrSpill_guard :
    answers (exec .holdLimitExpiry (spilling img)) (fun t => t.pass.slot.isNone && t.alerts.has .guard &&
      t.pass.lastAnswer == some .error && t.alerts.counters[0].count == 1) = true ∧
    answers (exec .holdLimitExpiry (spilling passing)) (fun t => t.alerts.has .guard &&
      t.pass.slot == some (.write 0x10002000 (burst [0])) && t.alerts.counters[0].count == 1) = true := by
  decide +kernel
/-- Header words at the limits of R21, and the words of a burst up to the window's last word (R20). -/
theorem test_witness_WindowBurstsFormRecordsOrStray_limits :
    headerLength (fullWord 0x5C100300) = some 3 ∧ headerLength (fullWord 0x5C210400) = some 4 ∧
    headerLength (fullWord 0x5C1205FF) = some 5 ∧ headerLength (fullWord 0x5C130600) = none ∧
    headerLength (fullWord 0x5C300300) = none ∧ headerLength (fullWord 0x5C000300) = none ∧
    headerLength (fullWord 0x5C100400) = none ∧ headerLength (fullWord 0x5D100300) = none ∧
    headerLength { data := 0x5C100300, enables := 7 } = none ∧
    markerWord { data := 0x5C100300, enables := 7 } = false ∧
    (img.window 0).base % 4 = 0 ∧ ((img.window 0).examined 0x00403FF8 (burst [1, 2, 3])) = burst [1, 2] := by
  decide +kernel
/-- Words 1 to 4 of the setup block in one burst; a word written with no byte; the word after the block; the
consumer index word of ring 1 and the word beside it. -/
theorem test_witness_PassthroughWriteGrantIssuesANotice_deliveries :
    let n := live.noticeOf 0x10000004 (burst [9, 9, 9, 9])
    let e := live.noticeOf 0x10000004 [{ data := 9, enables := 0 }]
    (n.captureDue && n.generationDue && n.commandDue && n.clockDue && !n.consumerDue) = true ∧
    e.captureDue = true ∧ e.generationDue = false ∧ (live.noticeOf 0x10001FFC (burst [9])).captureDue = true ∧
    (live.noticeOf 0x10002000 (burst [9])).settled = none ∧
    (live.noticeOf 0x00801004 (burst [9])).consumerDue = true ∧
    (live.noticeOf 0x00801008 (burst [9])).consumerDue = false ∧
    noticeTouches 0x00108020 0x00108020 [{ data := 9, enables := 0 }] = false := by decide +kernel
theorem test_witness_ArbiterGrantsByRunCountAndTurn_requests :
    (broken 0).tallyRequest = some .conditionalWrite ∧ (broken 0).withdraws = true ∧
    (posted .writeWait live).tallyRequest = none ∧ live.tallyRequest = none ∧
    (fetched img img).fetchRequest = false := by decide +kernel
/-- The lost-tally group becomes owed at a change of the totals alone (R170). -/
theorem test_witness_UpdatesArePostedMissedOrTurnedAway_owed :
    let full (l : Lost) : Ledger := { live.ledger with
      tally := { live.tally with queue := List.replicate 32 update, lost := l } }
    let tops : Lost := { energy := 2 ^ 64 - 1, pulled := 2 ^ 32 - 1, packed := 2 ^ 32 - 1, count := 2 ^ 32 - 1,
                         reason := .queueFull }
    ((full live.tally.lost).post update).alerts.owed.lostTally = true ∧
    ((full tops).post update).alerts.owed.lostTally = false := by decide +kernel
/-- What the premises on a state hold: a notice, a boundary reached, a hand-over with room, a timer at zero. -/
theorem test_witness_ClockAdvanceAddsOneSecond_premises :
    capturing.steady = false ∧ bounded.closesTaken = false ∧ snapped.closesTaken = false ∧
    changing.expiryDue = true ∧ staleAlone.expiryDue = true ∧ reporting.expiryDue = true ∧
    live.portOpen = true ∧ live.uready = true ∧ loaded.uready = false ∧ capturing.uready = true ∧
    capturing.portOpen = false := by decide +kernel

/-! ### Points of order -/

/-- A forward step of the clock and CLOSE_BINS of one burst: with room in the writer queue the step's snapshots are
handed over first, between the two deliveries (R98, R188). -/
def ordered : State :=
  holding { address := 0x10000008, words := burst [0x101, 1, 3600], captureDue := false, clockDue := false,
            generationDue := false, commandDue := true, consumerDue := false }
    { snapped with setup := { snapped.setup with shadow := (snapped.setup.shadow.set 2 0x101).set 3 1 } }
theorem test_hand_over_comes_before_the_next_close :
    answers (exec .closeBins ordered) (fun t => t == ordered) = true ∧
    answers (exec .handOver ordered) (fun t => t.writer.queue.length == 1 && t.pass.notice.isSome &&
      answers (exec .closeBins t) (fun u => u.lines.handOver.length == 4)) = true := by decide +kernel
/-- Two JOB_MARKs for one line give a JOB record each while the writer queue has room (R50, R98). -/
theorem test_job_closes_of_one_burst_stay_apart :
    let t := (live.deliverMatch img 1 (.jobMark 7 900)).deliverMatch img 1 (.jobMark 8 900)
    t.writer.queue.map (fun r => r.kind) = [.job] ∧ t.lines.handOver = [(.job, 1)] ∧
    ((t.lines.lines[(1 : Fin 16)]).jobSnap.map (fun j => (j.code, j.merged))) = some (7, 0) ∧
    (t.lines.lines[(1 : Fin 16)]).jobCode = 8 := by decide +kernel
/-- An enabled window of size 0 inside a sound one fails alone (R154). -/
theorem test_window_of_no_words_fails_alone :
    let m := (img.set 34 0x00400100).set 35 2168455168
    m.windowFails 0x10000000 0 = false ∧ m.windowFails 0x10000000 1 = true := by decide +kernel

end Sys2Proof.Tests
end

section
/-! SUPPORT. The command word's delivery, said once for every command, and INJECT_CHECK_FAULT (R30, R161 to R163). -/

namespace Sys2Proof.Machine

/-! ### The command word and its result -/

/-- The command code is the low byte of the command word (section 10.4). -/
theorem commandCode_eq (word : Word) : commandCode word = word.toNat % 256 := by simp [commandCode, bits]

/-- The result handed over by the Setup Unit is the one the statements speak of (R163). -/
theorem Alerts.giveResult_eq_withResult (word : Word) (r : CommandOutcome) (a : Alerts) :
    a.giveResult word r = a.withResult word r := Alerts.giveResult_eq word r a

/-! ### The delivery of a changed command word (R161) -/

/-- A delivered command word makes ready the step of its own code. -/
theorem State.commandReady_of_delivered {s : State} {n : Notice} (h : s.CommandDelivered n) {codes : Nat → Bool}
    (hc : codes (commandCode (s.setup.shadow.get 2)) = true) : s.commandReady codes = true := by
  obtain ⟨hreset, hnotice, hcommand, hcapture, hclock, hgeneration⟩ := h
  have hnext : n.commandNext = true := by simp [Notice.commandNext, hcommand, hcapture, hclock, hgeneration]
  simp [State.commandReady, State.shadowCommand, hreset, hnotice, hnext, hc]

/-- Taking a delivered command word: it becomes the last command word, and the command is dealt with. -/
theorem State.takeCommand_of_delivered {s : State} {n : Notice} (h : s.CommandDelivered n) :
    s.takeCommand = (s.commandTaken n).dealWith (s.setup.shadow.get 2) (s.setup.shadow.get 3) := by
  obtain ⟨-, hnotice, -⟩ := h
  rw [State.takeCommand, hnotice]
  rfl

/-! ### A command by part state (R162) -/

/-- In UNSET a command other than NO_COMMAND is refused. -/
theorem State.dealWith_unset {s : State} {word : Word} (arg : Word) (hp : s.setup.part = .unset)
    (hc : commandCode word ≠ 0) :
    s.dealWith word arg = { s with alerts := s.alerts.withResult word .refusedUnset } := by
  simp [State.dealWith, hp, hc, Alerts.giveResult_eq_withResult]

/-- During APPLYING a command other than NO_COMMAND waits. -/
theorem State.dealWith_applying {s : State} {word : Word} (arg : Word) {p : Phase}
    (hp : s.setup.part = .applying p) (hc : commandCode word ≠ 0) :
    s.dealWith word arg = { s with setup := { s.setup with waiting := some (word, arg) } } := by
  simp [State.dealWith, hp, hc]

/-- In ACTIVE a command other than NO_COMMAND is carried out and its result handed over (R163). -/
theorem State.dealWith_active {s t : State} {word arg : Word} {r : CommandOutcome} (hp : s.setup.part = .active)
    (hc : commandCode word ≠ 0) (hr : s.command word arg = (t, r)) :
    s.dealWith word arg = { t with alerts := t.alerts.withResult word r } := by
  simp [State.dealWith, State.carryOut, hp, hc, hr, Alerts.giveResult_eq_withResult]

/-! ### INJECT_CHECK_FAULT (R30) -/

/-- Code 5 is INJECT_CHECK_FAULT. -/
theorem State.command_of_code_five {word : Word} (s : State) (arg : Word) (hc : commandCode word = 5) :
    s.command word arg = s.injectFault arg := by
  simp [State.command, hc]

/-- An argument from 0 to 3 sets the inject flag of its window and writes nothing else. -/
theorem State.injectFault_window {arg : Word} {i : Fin 4} (s : State) (hi : arg.toNat = i.val) :
    s.injectFault arg = ({ s with
      intake := { s.intake with
        windows := s.intake.windows.set i { s.intake.windows[i] with inject := true } } }, .done) := by
  simp only [State.injectFault, hi, i.isLt, dif_pos]
  rfl

/-- An argument above 3 changes nothing. -/
theorem State.injectFault_above {arg : Word} (s : State) (h : 3 < arg.toNat) :
    s.injectFault arg = (s, .badArgument) := dif_neg (by omega)

/-- The INJECT_CHECK_FAULT step comes to what the part state makes of the command, up to the mirror write. -/
theorem exec_injectCheckFault_of_dealWith {s t : State} {n : Notice} (h : s.CommandDelivered n)
    (hc : commandCode (s.setup.shadow.get 2) = 5)
    (e : (s.commandTaken n).dealWith (s.setup.shadow.get 2) (s.setup.shadow.get 3) = t) :
    ∃ m, exec .injectCheckFault s = .next { t with alerts := { t.alerts with mirror := m } } :=
  stepWhen_of_eq (s.commandReady_of_delivered h (by simp [hc])) (s.takeCommand_of_delivered h |>.trans e)

/-- Settles O35, by part state, and in ACTIVE by whether the argument names a window. -/
theorem injectCheckFaultSetsTheWindowFlag : Obligations.InjectCheckFaultSetsTheWindowFlag := by
  unfold Obligations.InjectCheckFaultSetsTheWindowFlag
  intro s n word arg hd hword harg hcode
  subst hword harg
  have hc : commandCode (s.setup.shadow.get 2) = 5 := (commandCode_eq _).trans hcode
  have hne : commandCode (s.setup.shadow.get 2) ≠ 0 := by omega
  have hinject (u : State) : u.command (s.setup.shadow.get 2) (s.setup.shadow.get 3) =
      u.injectFault (s.setup.shadow.get 3) := u.command_of_code_five _ hc
  refine ⟨fun i hp hi => ?window, fun hp habove => ?above, fun p hp => ?applying, fun hp => ?unset⟩
  case window =>
    exact exec_injectCheckFault_of_dealWith hd hc
      (State.dealWith_active hp hne ((hinject _).trans (State.injectFault_window _ hi)))
  case above =>
    exact exec_injectCheckFault_of_dealWith hd hc
      (State.dealWith_active hp hne ((hinject _).trans (State.injectFault_above _ habove)))
  case applying => exact exec_injectCheckFault_of_dealWith hd hc (State.dealWith_applying _ hp hne)
  case unset => exact exec_injectCheckFault_of_dealWith hd hc (State.dealWith_unset _ hp hne)

end Sys2Proof.Machine
end

section
/-! SUPPORT. The Pattern Matchers: the CRC-16 register bit by bit, and when a burst is tested and matches
(R42 to R47). -/

namespace Sys2Proof.Machine

/-! ### The CRC-16 register (R46) -/

/-- With nothing fed the register stands at its start value. -/
theorem crc16_nil : crc16 [] = 0xFFFF#16 := rfl

/-- A further word is fed bit by bit into the register that the words before it leave. -/
theorem crc16_concat (ws : List Word) (w : Word) :
    crc16 (ws ++ [w]) = (crcOrder w).foldl crcBit (crc16 ws) := by
  simp [crc16, List.flatMap_append, List.foldl_append]

/-- The polynomial is combined exactly where the bit leaving bit 15 differs from the bit fed. -/
theorem crcBit_eq (r : BitVec 16) (b : Bool) :
    crcBit r b = if r.getLsbD 15 = b then r <<< 1 else (r <<< 1) ^^^ 0x8005#16 := by
  simp [crcBit]

/-! ### Which bursts are tested (R42 to R44) -/

/-- A word is written with all four enables when its enables are 1111b. -/
theorem allEnabled_iff (w : WriteWord) : allEnabled w = true ↔ w.enables = 15 := beq_iff_eq

/-- R42: the matcher is enabled and the burst lies between its range base and its range's last word. -/
theorem Matcher.covers_iff (t : Matcher) (a length : Nat) :
    t.covers a length = true ↔ t.enabled = true ∧ t.base ≤ a ∧ a + 4 * length ≤ t.base + 4 * t.size := by
  simp [Matcher.covers, and_assoc]

/-- R43 and R44: every word the matcher uses is reached and written with all four enables. -/
theorem Matcher.tests_iff (t : Matcher) (ws : List WriteWord) :
    t.tests ws = true ↔ ∀ k ∈ t.used, ∃ w, ws[k]? = some w ∧ w.enables = 15 := by
  rw [Matcher.tests, List.all_eq_true]
  refine forall₂_congr fun k _ => ?_
  cases ws[k]? with
  | none => simp
  | some w => simp [allEnabled_iff]

/-- R45: the selected positions are those at the pattern offset plus a set bit of the mask. -/
theorem Matcher.mem_selected {t : Matcher} {k : Nat} :
    k ∈ t.selected ↔ ∃ i < 16, t.mask.getLsbD i = true ∧ t.offset + i = k := by
  simp [Matcher.selected, and_assoc]

/-- The extra positions that a JOB_MARK uses are its code word and its weight word. -/
theorem Matcher.mem_used {t : Matcher} {k : Nat} :
    k ∈ t.used ↔ k ∈ t.selected ∨ t.action = .jobMark ∧ (k = t.codeOffset ∨ k = t.weightOffset) := by
  unfold Matcher.used
  by_cases h : t.action = .jobMark
  · simp [h]
  · simp [h]

/-- What holds of every used position holds at each set bit of the mask and, for a JOB_MARK, at its two words. -/
theorem Matcher.forall_used {t : Matcher} {P : Nat → Prop} :
    (∀ k ∈ t.used, P k) ↔ (∀ i, i < 16 → t.mask.getLsbD i = true → P (t.offset + i)) ∧
      (t.action = .jobMark → ∀ k, k = t.codeOffset ∨ k = t.weightOffset → P k) := by
  constructor
  · intro h
    exact ⟨fun i hi hbit => h _ (mem_used.mpr (.inl (mem_selected.mpr ⟨i, hi, hbit, rfl⟩))),
      fun hjob k hk => h k (mem_used.mpr (.inr ⟨hjob, hk⟩))⟩
  · rintro ⟨hselected, hjob⟩ k hk
    rcases mem_used.mp hk with hsel | ⟨haction, hword⟩
    · obtain ⟨i, hi, hbit, rfl⟩ := mem_selected.mp hsel
      exact hselected i hi hbit
    · exact hjob haction k hword

/-! ### Which bursts match (R45, R47) -/

/-- R45: the words fed are those at the pattern offset plus each set bit of the mask, in increasing order. -/
theorem Matcher.map_wordAt_selected (t : Matcher) (ws : List WriteWord) :
    t.selected.map (wordAt ws) =
      ((List.range 16).filter (fun i => t.mask.getLsbD i)).map (fun i => wordAt ws (t.offset + i)) :=
  List.map_map

/-- R47: a burst matches when it lies in the range, is tested, and leaves the expected CRC. -/
theorem Matcher.matched_iff (t : Matcher) (a : Nat) (ws : List WriteWord) :
    t.matched a ws = true ↔ (t.covers a ws.length = true ∧ t.tests ws = true) ∧
      (crc16 (t.selected.map (wordAt ws))).toNat = t.expected := by
  simp [Matcher.matched]

/-- R47: a notice that no matcher matches gives no event and no report. -/
theorem State.matchNotice_of_no_match {m : Image} {a : Nat} {ws : List WriteWord}
    (h : ∀ i : Fin 16, (m.matcher i).matched a ws = false) (s : State) : s.matchNotice m a ws = s :=
  List.foldl_fixed' (fun i => by simp [h i]) _

/-- Settles O47, by the register's rules and, for a match, by the range, the used words and the CRC in turn. -/
theorem crcOfTheSelectedWordsDecidesAMatch : Obligations.CrcOfTheSelectedWordsDecidesAMatch := by
  unfold Obligations.CrcOfTheSelectedWordsDecidesAMatch
  refine ⟨crc16_nil, crc16_concat, crcBit_eq, ?byteZero, ?matched,
    fun _ _ _ s h => State.matchNotice_of_no_match h s⟩
  case byteZero => decide
  case matched =>
    intro t a ws
    rw [t.matched_iff, t.covers_iff, t.tests_iff, Matcher.forall_used, t.map_wordAt_selected]
    simp only [and_assoc]

end Sys2Proof.Machine
end

section
/-! SUPPORT. The Meter Channels: what the expiry of a stale timer writes, by the state of its channel
(R66, R69, R168). -/

namespace Sys2Proof.Machine

/-! ### A new channel table (R168) -/

/-- A new channel table latches no bit but STALE_EDGE. -/
theorem State.withMeters_has_of_ne (ms : Vector Meter 256) (s : State) {b : AlertBit} (h : b ≠ .staleEdge) :
    (s.withMeters ms).alerts.has b = s.alerts.has b := by
  refine (Alerts.has_follow _ _ _ _ _ b).trans ?_
  simp [Condition.bit, h]

/-- A table under which ANY_STALE stands as it stood is written without an edge. -/
theorem State.withMeters_of_anyStale_eq {ms : Vector Meter 256} {s : State}
    (h : { s.channels with meters := ms : Channels }.anyStale = s.channels.anyStale) :
    s.withMeters ms = { s with channels := { s.channels with meters := ms } } := by
  unfold State.withMeters
  rw [h]
  cases s.channels.anyStale <;> rfl

/-- ANY_STALE holds of a table with a STALE meter put into it (R69). -/
theorem Channels.anyStale_set (c : Channels) (e : Fin 256) {m : Meter} (h : m.state = .stale) :
    { c with meters := c.meters.set e m : Channels }.anyStale = true :=
  (Channels.anyStale_iff _).2 ⟨e, by simpa using h⟩

/-! ### The meter whose timer expires (R66) -/

/-- A trusted meter is a LIVE or a SUSPECT one. -/
theorem Meter.trusted_iff (m : Meter) : m.trusted = true ↔ m.state = .live ∨ m.state = .suspect := by
  simp [Meter.trusted]

/-- A LIVE or SUSPECT meter goes STALE at gap count 1; what it last accepted stays. -/
theorem Meter.expire_of_trusted {m : Meter} (timeout : Nat) (h : m.trusted = true) :
    m.expire timeout = { m with state := .stale, candidate := none, suspectCount := none, gap := 1,
                                timer := some timeout, staleInBin := true } := by
  rcases m.trusted_iff.1 h with hs | hs <;> rw [Meter.expire, hs]

/-- A STALE meter raises its gap count, to 255 at most, and starts its timer again. -/
theorem Meter.expire_of_stale {m : Meter} (timeout : Nat) (h : m.state = .stale) :
    m.expire timeout = { m with gap := min (m.gap + 1) 255, timer := some timeout } := by
  rw [Meter.expire, h]
  rfl

/-- Whichever of the three states the timer ran in, the meter is STALE at its expiry. -/
theorem Meter.expire_state {m : Meter} (timeout : Nat) (h : m.trusted = true ∨ m.state = .stale) :
    (m.expire timeout).state = .stale := by
  rcases h with ht | hs
  · rw [Meter.expire_of_trusted timeout ht]
  · rw [Meter.expire_of_stale timeout hs, hs]

/-! ### The expiry in the state (R66, R168) -/

/-- The expiry of a running stale timer is taken as soon as every unit has acted on the last notice (R65). -/
theorem exec_staleExpiry {e : Fin 256} {s : State} (hsteady : s.steady = true)
    (htimer : (s.channels.meters[e]).timer = some 0)
    (hrun : (s.channels.meters[e]).trusted = true ∨ (s.channels.meters[e]).state = .stale) :
    exec (.staleExpiry e) s = .next (s.expireStale e).requestMirror :=
  stepWhen_can (State.expireStale e) s (by
    simp only [hsteady, htimer, beq_self_eq_true, Bool.true_and, Bool.or_eq_true, beq_iff_eq]
    exact hrun)

/-- The channel table after an expiry: the entry's meter alone has changed. -/
theorem State.expireStale_channels (e : Fin 256) (s : State) :
    (s.expireStale e).channels = { s.channels with
      meters := s.channels.meters.set e ((s.channels.meters[e]).expire (s.cfg.channel e).timeout) } := rfl

/-- An expiry latches STALE_ENTER at a trusted meter, beside the bits that the new table has. -/
theorem State.expireStale_has (e : Fin 256) (s : State) (b : AlertBit) :
    (s.expireStale e).alerts.has b =
      ((s.withMeters (s.channels.meters.set e
          ((s.channels.meters[e]).expire (s.cfg.channel e).timeout))).alerts.has b ||
        ((s.channels.meters[e]).trusted && decide (b = .staleEnter))) :=
  Alerts.has_latchIf _ _ _ b

/-- An expiry latches no bit but STALE_ENTER and STALE_EDGE. -/
theorem State.expireStale_has_of_ne (e : Fin 256) (s : State) {b : AlertBit} (henter : b ≠ .staleEnter)
    (hedge : b ≠ .staleEdge) : (s.expireStale e).alerts.has b = s.alerts.has b := by
  rw [State.expireStale_has, State.withMeters_has_of_ne _ s hedge]
  simp [henter]

/-- An expiry latches bits and owes groups alone; counters and results stand. -/
theorem State.grew_expireStale (e : Fin 256) (s : State) :
    Alerts.Grew s.alerts (s.expireStale e).alerts :=
  (Alerts.grew_follow _ _ _ _ _).trans (Alerts.grew_latchIf _ _ _)

/-- STALE_EDGE follows ANY_STALE over an expiry. -/
theorem State.edgeFollows_expireStale (e : Fin 256) (s : State) :
    State.EdgeFollows (s.cfg.selectsBoth .anyStale) s (s.expireStale e) :=
  (State.edgeFollows_withMeters _ s).congr rfl rfl rfl (by simp [State.expireStale_has])
    fun h => (Alerts.latchIf_realTime _ _ _).trans h

/-- After the expiry of a running stale timer ANY_STALE holds. -/
theorem State.expireStale_anyStale {e : Fin 256} {s : State}
    (hrun : (s.channels.meters[e]).trusted = true ∨ (s.channels.meters[e]).state = .stale) :
    (s.expireStale e).channels.anyStale = true :=
  Channels.anyStale_set _ e (Meter.expire_state _ hrun)

/-- Where the meter was not trusted, an expiry comes to its new channel table alone. -/
theorem State.expireStale_of_untrusted {e : Fin 256} {s : State} (h : (s.channels.meters[e]).trusted = false) :
    s.expireStale e = s.withMeters (s.channels.meters.set e
      ((s.channels.meters[e]).expire (s.cfg.channel e).timeout)) := by
  simp only [State.expireStale, h]
  rfl

/-- The expiry at a STALE meter latches nothing: ANY_STALE held before, and holds after. -/
theorem State.expireStale_of_stale {e : Fin 256} {s : State} (h : (s.channels.meters[e]).state = .stale) :
    s.expireStale e = { s with channels := { s.channels with
      meters := s.channels.meters.set e { s.channels.meters[e] with
        gap := min ((s.channels.meters[e]).gap + 1) 255, timer := some (s.cfg.channel e).timeout } } } := by
  have huntrusted : (s.channels.meters[e]).trusted = false := by rw [Meter.trusted, h]; rfl
  have hbefore : s.channels.anyStale = true := s.channels.anyStale_iff.2 ⟨e, h⟩
  have hkept := (State.expireStale_anyStale (.inr h)).trans hbefore.symm
  rw [State.expireStale_of_untrusted huntrusted, State.withMeters_of_anyStale_eq hkept, Meter.expire_of_stale _ h]

/-- Settles O11, by whether the channel was trusted (LIVE or SUSPECT) or STALE already. -/
theorem staleExpiryEntersStaleOrRaisesTheGap : Obligations.StaleExpiryEntersStaleOrRaisesTheGap := by
  unfold Obligations.StaleExpiryEntersStaleOrRaisesTheGap
  refine fun e s hsteady htimer => ⟨fun hstate => ?enters, fun hstate => ?raises⟩
  case enters =>
    have htrusted := (Meter.trusted_iff _).2 hstate
    have hstale := State.expireStale_anyStale (.inl htrusted)
    obtain ⟨hedge, howed⟩ := (s.edgeFollows_expireStale e).request
    refine ⟨_, exec_staleExpiry hsteady htimer (.inl htrusted), ?state, ?enter, hstale, ?edge, ?owed, ?others,
      ?counters⟩
    case state => rw [← Meter.expire_of_trusted _ htrusted]; rfl
    case enter => rw [State.requestMirror_has, State.expireStale_has, htrusted]; simp
    case edge => simpa [hstale] using hedge
    case owed => exact fun hnone => howed (by simp [hnone, hstale])
    case others =>
      intro b henter hedge
      rw [State.requestMirror_has, State.expireStale_has_of_ne e s henter hedge]
    case counters => rw [requestMirror_counters, (s.grew_expireStale e).counters]
  case raises =>
    rw [exec_staleExpiry hsteady htimer (.inr hstate), State.expireStale_of_stale hstate]
    exact ⟨_, congrArg _ (requestMirror_eq _)⟩

end Sys2Proof.Machine
end

section
/-! SUPPORT. The books (channel table, lines, Tally Engine) over the effects that do not keep them: the width of the
defect counters under every report (R177), and the steps of the ports and the rings that leave the books. -/

namespace Sys2Proof.Machine

/-! ### The width of the defect counters (R177) -/

/-- The counts and latched copies of the defect counters keep to 16 bits (R177). -/
def Alerts.Within (a : Alerts) : Prop := ∀ i : Fin 4, (a.counters[i]).count ≤ 65535 ∧ (a.counters[i]).latch ≤ 65535

/-- The width of the counters is a matter of the counters alone. -/
theorem Alerts.Within.of_counters {a b : Alerts} (h : a.Within) (e : b.counters = a.counters) : b.Within := by
  unfold Alerts.Within
  rw [e]
  exact h

/-- A report raises counts, to 65535 at most. -/
theorem Alerts.Within.report {a : Alerts} (h : a.Within) (m : Image) (c : DefectClass) : (a.report m c).Within := by
  intro i
  rw [Alerts.report_counters]
  split
  · exact ⟨Nat.min_le_right _ _, (h i).2⟩
  · exact h i

theorem Alerts.Within.giveResult {a : Alerts} (h : a.Within) (w : Word) (r : CommandOutcome) :
    (a.giveResult w r).Within := by
  rw [Alerts.giveResult_eq]
  exact h

/-- A transfer moves counts to latched copies (R178). -/
theorem Alerts.Within.transfer {a : Alerts} (h : a.Within) (which : Fin 4 → Bool) : (a.transfer which).Within := by
  intro i
  have hi : (a.transfer which).counters[i] =
      if which i then { count := 0, latch := a.counters[i].count } else a.counters[i] := by
    simp [Alerts.transfer]
  rw [hi]
  split
  · exact ⟨Nat.zero_le _, (h i).1⟩
  · exact h i

/-! ### The service of an update ends by shortening the queue (R131, R132, R134) -/

theorem Tally.breakReservation_queue (m : Image) (a : Nat) (ws : List WriteWord) (t : Tally) :
    (t.breakReservation m a ws).queue = t.queue := by
  unfold Tally.breakReservation
  split
  · split <;> rfl
  · rfl

theorem Tally.finish_queue (t : Tally) : t.finish.queue.length ≤ t.queue.length := by
  simp [Tally.finish]

theorem Ledger.sendToMissList_queue (r : MissReason) (l : Bool) (x : Ledger) :
    (x.sendToMissList r l).tally.queue.length ≤ x.tally.queue.length := by
  unfold Ledger.sendToMissList
  split
  · exact x.tally.finish_queue
  · next u rest _ =>
    exact (congrArg (fun t : Tally => t.queue.length) (Ledger.miss_tally_frame r l u _) :).trans_le
      x.tally.finish_queue

theorem Ledger.miss_within {r : MissReason} {l : Bool} {u : Update} {x : Ledger} (h : x.alerts.Within) :
    (x.miss r l u).alerts.Within := by
  have turned (reason : LostReason) : (x.turnAway reason u).alerts.Within :=
    Alerts.Within.of_counters h (Alerts.latch_counters _ _)
  unfold Ledger.miss
  split
  · exact h.of_counters (Alerts.latch_counters _ _)
  · split
    · exact h.of_counters (Alerts.latch_counters _ _)
    · exact turned _

theorem Ledger.sendToMissList_within {r : MissReason} {l : Bool} {x : Ledger} (h : x.alerts.Within) :
    (x.sendToMissList r l).alerts.Within := by
  unfold Ledger.sendToMissList
  split
  · exact h
  · exact Ledger.miss_within h

theorem Ledger.loss_queue (m : Image) (l : Bool) (x : Ledger) :
    (x.loss m l).tally.queue.length ≤ x.tally.queue.length := by
  unfold Ledger.loss
  dsimp only
  split
  · exact Ledger.sendToMissList_queue _ _ _
  · exact le_rfl

theorem Ledger.loss_within (m : Image) (l : Bool) (x : Ledger) (h : x.alerts.Within) :
    (x.loss m l).alerts.Within := by
  unfold Ledger.loss
  dsimp only
  split
  · exact Ledger.sendToMissList_within (h.report _ _)
  · exact h.report _ _

theorem Ledger.fail_queue (r : MissReason) (x : Ledger) :
    (x.fail r).tally.queue.length ≤ x.tally.queue.length := Ledger.sendToMissList_queue _ _ _

theorem Ledger.fail_within (r : MissReason) (x : Ledger) (h : x.alerts.Within) : (x.fail r).alerts.Within :=
  Ledger.sendToMissList_within (h.of_counters (Alerts.latch_counters _ _))

/-! ### What the examination of a window burst keeps (R20 to R32) -/

/-- A condition on the desk that reports, window buffers and accepted records keep. -/
structure Desk.Kept (P : Desk → Prop) : Prop where
  report : ∀ (m : Image) (c : DefectClass) (x : Desk), P x → P (x.report m c)
  setWindow : ∀ (i : Fin 4) (w : WindowState) (x : Desk), P x → P (x.setWindow i w)
  enqueue : ∀ (m : Image) (r : TapRecord) (x : Desk), P x → P (x.enqueue m r)

variable {P : Desk → Prop}

theorem Desk.Kept.complete (hP : Desk.Kept P) (m : Image) (i : Fin 4) (ws : List Word) {x : Desk} (h : P x) :
    P (x.complete m i ws) := by
  unfold Desk.complete
  split
  · exact hP.report m _ _ (hP.setWindow _ _ _ h)
  · split
    · split
      · exact hP.enqueue m _ _ h
      · exact hP.report m _ _ h
    · exact hP.report m _ _ h

theorem Desk.Kept.start (hP : Desk.Kept P) (m : Image) (i : Fin 4) (a len : Nat) (ws : List WriteWord) {x : Desk}
    (h : P x) : P (x.start m i a len ws).1 := by
  unfold Desk.start
  split
  · exact hP.report m _ _ h
  · split
    · exact hP.report m _ _ h
    · split
      · exact hP.complete m i _ h
      · exact hP.setWindow _ _ _ h

theorem Desk.Kept.scan (hP : Desk.Kept P) (m : Image) (i : Fin 4) (fuel : Nat) :
    ∀ (a : Nat) (ws : List WriteWord) (x : Desk), P x → P (x.scan m i fuel a ws) := by
  induction fuel with
  | zero => exact fun a ws x h => by cases ws <;> exact h
  | succ fuel ih =>
    intro a ws x h
    cases ws with
    | nil => exact h
    | cons w ws =>
      unfold Desk.scan
      split
      · dsimp only
        split
        · exact ih _ _ _ (hP.start m i _ _ _ h)
        · exact hP.start m i _ _ _ h
      · split
        · exact hP.report m _ _ h
        · exact h

theorem Desk.Kept.continue (hP : Desk.Kept P) (m : Image) (i : Fin 4) (a : Nat) (p : Partial) (ws : List WriteWord)
    {x : Desk} (h : P x) : P (x.continue m i a p ws) := by
  have hempty : P (x.emptyBuffer i) := hP.setWindow _ _ _ h
  unfold Desk.continue
  dsimp only
  split
  · exact hP.report m _ _ hempty
  · split
    · exact hP.scan m i _ _ _ _ (hP.complete m i _ hempty)
    · exact hP.setWindow _ _ _ h

theorem Desk.Kept.burst (hP : Desk.Kept P) (m : Image) (i : Fin 4) (a : Nat) (ws : List WriteWord) {x : Desk}
    (h : P x) : P (x.burst m i a ws) := by
  have fresh (y : Desk) (hy : P y) : P (match ws with
      | [] => y
      | w :: _ => if (headerLength w).isSome then y.scan m i 16 a ws else y.report m .stray) := by
    split
    · exact hy
    · split
      · exact hP.scan m i _ _ _ _ hy
      · exact hP.report m _ _ hy
  unfold Desk.burst
  dsimp only
  split
  · split
    · exact hP.continue m i _ _ _ h
    · split
      · exact fresh _ (hP.report m _ _ (hP.setWindow _ _ _ h))
      · exact hP.report m _ _ h
  · exact fresh x h

theorem Desk.Kept.notice (hP : Desk.Kept P) (m : Image) (spill : Bool) (a : Nat) (ws : List WriteWord) (x : Desk)
    (h : P x) : P (x.notice m spill a ws) := by
  unfold Desk.notice
  split
  · exact h
  · split
    · exact hP.report m _ _ h
    · exact hP.burst m _ _ _ h

theorem Desk.Kept.abandonAll (hP : Desk.Kept P) (m : Image) (x : Desk) (h : P x) : P (x.abandonAll m) := by
  unfold Desk.abandonAll
  generalize List.finRange 4 = l
  induction l generalizing x with
  | nil => exact h
  | cons i rest ih =>
    refine ih _ ?_
    dsimp only
    split
    · exact hP.report m _ _ (hP.setWindow _ _ _ h)
    · exact h

/-! ### Reports of the Intake Unit (R37) -/

theorem Desk.report_within (m : Image) (c : DefectClass) {x : Desk} (h : x.alerts.Within) :
    (x.report m c).alerts.Within := Alerts.Within.report h m c

theorem Desk.within_kept : Desk.Kept (fun x => x.alerts.Within) where
  report m c _ h := Desk.report_within m c h
  setWindow _ _ _ h := h
  enqueue m r x h := by
    unfold Desk.enqueue
    split
    · exact h
    · exact Desk.report_within m _ h

/-- The intake queue holds at most 64 records: a record that finds it full is dropped as SPILLED (R32). -/
theorem Desk.queue_kept : Desk.Kept (fun x => x.intake.queue.length ≤ 64) where
  report _ _ _ h := h
  setWindow _ _ _ h := h
  enqueue m r x h := by
    unfold Desk.enqueue
    split
    · next hroom =>
      rw [List.length_append]
      exact hroom
    · exact h

/-! ### The steps that leave the books -/

/-- The channel table, the lines and the engine are left as they are; what is reported keeps the counters' width. -/
structure State.LeavesBooks (s t : State) : Prop where
  channels : t.channels = s.channels
  lines : t.lines = s.lines
  tally : t.tally = s.tally
  within : s.alerts.Within → t.alerts.Within

theorem State.LeavesBooks.trans {s t u : State} (h : LeavesBooks s t) (g : LeavesBooks t u) : LeavesBooks s u :=
  ⟨g.channels.trans h.channels, g.lines.trans h.lines, g.tally.trans h.tally, g.within ∘ h.within⟩

/-- A step that latches bits and owes groups alone among the alerts. -/
theorem State.LeavesBooks.of_grew {s t : State} (hc : t.channels = s.channels) (hl : t.lines = s.lines)
    (ht : t.tally = s.tally) (ha : t.alerts.counters = s.alerts.counters) : LeavesBooks s t :=
  ⟨hc, hl, ht, fun h => h.of_counters ha⟩

theorem State.acceptWrite_leaves (a : Nat) (ws : List WriteWord) (s : State) : s.LeavesBooks (s.acceptWrite a ws) := by
  refine .of_grew (by simp) (by simp) (by simp) ?_
  cases h : s.touchesGuard a ws.length
  · rw [State.acceptWrite_free a ws s h]
  · rw [State.acceptWrite_touching a ws s h]
    exact Alerts.latch_counters _ _

theorem State.leaveHold_leaves (s : State) : s.LeavesBooks s.leaveHold :=
  .of_grew rfl rfl rfl (Alerts.grew_fall _ _ _).counters

theorem State.presentWrite_leaves (a : Nat) (ws : List WriteWord) (s : State) :
    s.LeavesBooks (s.presentWrite a ws) := by
  unfold State.presentWrite
  split
  · exact ⟨rfl, rfl, rfl, id⟩
  · split
    · exact .of_grew rfl rfl rfl (Alerts.grew_rise _ _).counters
    · exact s.acceptWrite_leaves a ws

theorem State.presentRead_leaves (a : Nat) (es : List (BitVec 4)) (s : State) :
    s.LeavesBooks (s.presentRead a es) := by
  unfold State.presentRead
  split
  · exact ⟨rfl, rfl, rfl, id⟩
  · split <;> exact ⟨rfl, rfl, rfl, id⟩

theorem State.releaseHold_leaves (s : State) : s.LeavesBooks s.releaseHold := by
  unfold State.releaseHold
  split
  · exact ⟨rfl, rfl, rfl, id⟩
  · exact s.leaveHold_leaves.trans (State.acceptWrite_leaves _ _ _)

theorem State.releaseRead_leaves (s : State) : s.LeavesBooks s.releaseRead := by
  unfold State.releaseRead
  split <;> exact ⟨rfl, rfl, rfl, id⟩

theorem State.enterSpill_leaves (s : State) : s.LeavesBooks s.enterSpill := by
  refine ⟨by simp, by simp, by simp, fun h => ?_⟩
  unfold State.enterSpill
  split
  · exact h
  · refine (State.acceptWrite_leaves _ _ _).within (Desk.within_kept.abandonAll _ _ ?_)
    exact (s.leaveHold_leaves.within h).of_counters (Alerts.grew_rise _ _).counters

theorem State.assemblyTimeout_leaves (i : Fin 4) (s : State) :
    s.LeavesBooks (s.withDesk ((s.desk.emptyBuffer i).report s.cfg .stray)) :=
  ⟨rfl, rfl, rfl, fun h => Desk.report_within (x := s.desk.emptyBuffer i) _ _ h⟩

theorem State.capture_leaves (s : State) : s.LeavesBooks s.capture := by
  unfold State.capture
  split <;> exact ⟨rfl, rfl, rfl, id⟩

theorem State.takeGeneration_leaves (s : State) : s.LeavesBooks s.takeGeneration := by
  unfold State.takeGeneration State.testGeneration
  split
  · exact ⟨rfl, rfl, rfl, id⟩
  · split
    · exact ⟨rfl, rfl, rfl, id⟩
    · exact ⟨rfl, rfl, rfl, id⟩
    · split
      · exact ⟨rfl, rfl, rfl, id⟩
      · exact ⟨rfl, rfl, rfl, id⟩
    · exact ⟨rfl, rfl, rfl, id⟩

theorem State.takeConsumer_leaves (s : State) : s.LeavesBooks s.takeConsumer := by
  unfold State.takeConsumer
  split
  · exact ⟨rfl, rfl, rfl, id⟩
  · obtain ⟨rs, al, h, hg, -⟩ := State.consumerNotice_eq _ _ _
    rw [h]
    exact .of_grew rfl rfl rfl hg.counters

theorem State.takeObservation_leaves (s : State) : s.LeavesBooks s.takeObservation := by
  refine ⟨by simp, by simp, by simp, fun h => ?_⟩
  unfold State.takeObservation
  split
  · exact h
  · dsimp only
    split
    · exact h
    · unfold Alerts.clearRead
      dsimp only
      split <;> exact h

theorem State.takeHead_leaves (s : State) : s.LeavesBooks s.takeHead := by
  refine .of_grew (by simp) (by simp) (by simp) ?_
  unfold State.takeHead
  split
  · rfl
  · dsimp only
    split
    · exact Alerts.latch_counters _ _
    · split
      · exact Alerts.latch_counters _ _
      · rfl

theorem State.discardRecord_leaves (s : State) : s.LeavesBooks s.discardRecord := by
  refine .of_grew (by simp) (by simp) (by simp) ?_
  unfold State.discardRecord
  split <;> exact Alerts.latch_counters _ _

theorem State.publishRecord_leaves (s : State) : s.LeavesBooks s.publishRecord :=
  .of_grew (by simp) (by simp) (by simp) (by simp)

theorem State.freePort_leaves (s : State) : s.LeavesBooks s.freePort := ⟨rfl, rfl, rfl, id⟩

theorem State.answerRecordWrite_leaves (a : Answer) (s : State) : s.LeavesBooks (s.answerRecordWrite a) := by
  cases a with
  | ok => exact ⟨rfl, rfl, rfl, id⟩
  | error =>
    unfold State.answerRecordWrite
    dsimp only
    split
    · exact s.freePort_leaves.trans s.freePort.discardRecord_leaves
    · exact ⟨rfl, rfl, rfl, id⟩

theorem State.answerIndexWrite_leaves (a : Answer) (s : State) : s.LeavesBooks (s.answerIndexWrite a) := by
  cases a with
  | ok => exact s.freePort_leaves.trans s.freePort.publishRecord_leaves
  | error =>
    unfold State.answerIndexWrite
    dsimp only
    split
    · exact s.freePort_leaves.trans s.freePort.discardRecord_leaves
    · exact ⟨rfl, rfl, rfl, id⟩

theorem State.answerInitialisingWrite_leaves (a : Answer) (s : State) :
    s.LeavesBooks (s.answerInitialisingWrite a) := by
  cases a with
  | ok => exact ⟨rfl, rfl, rfl, id⟩
  | error => exact .of_grew rfl rfl rfl (Alerts.latch_counters _ _)

theorem State.answerMirror_leaves (a : Answer) (s : State) : s.LeavesBooks (s.answerMirror a) := by
  cases a with
  | ok => exact ⟨rfl, rfl, rfl, id⟩
  | error => exact .of_grew rfl rfl rfl (Alerts.latch_counters _ _)

theorem State.answerFetch_leaves (a : ReadAnswer 16) (s : State) : s.LeavesBooks (s.answerFetch a) := by
  cases a with
  | ok d => exact ⟨rfl, rfl, rfl, id⟩
  | error =>
    exact .of_grew rfl rfl rfl ((Alerts.latch_counters _ _).trans (Alerts.latch_counters _ _))

end Sys2Proof.Machine
end

section
/-! SUPPORT. The reservation of the Tally Engine: held in service alone, after every step (R131). -/

namespace Sys2Proof.Machine

/-! ### The condition as one of the engine alone -/

/-- The engine holds no reservation in IDLE, READ_WAIT or BACKOFF. -/
def Tally.Reserves (t : Tally) : Prop :=
  t.state = .idle ∨ t.state = .readWait ∨ t.state = .backoff → t.reservation = none

theorem reservationOnlyInService_iff (s : State) : ReservationOnlyInService s ↔ s.tally.Reserves := Iff.rfl

/-- Without a reservation the condition holds in every engine state. -/
theorem Tally.Reserves.of_none {t : Tally} (h : t.reservation = none) : t.Reserves := fun _ => h

/-- In READ_OUT and WRITE_WAIT a reservation may stand. -/
theorem Tally.Reserves.of_service {t : Tally} (h : t.state = .readOut ∨ t.state = .writeWait) : t.Reserves := by
  rintro (hs | hs | hs) <;> rcases h with hr | hr <;> cases hs.symm.trans hr

/-- What leaves the service of the update in hand keeps the condition. -/
theorem Tally.Reserves.same {a b : Tally} (h : a.Reserves) (g : Tally.SameService a b) : b.Reserves := by
  obtain ⟨hstate, hres, -, -⟩ := g
  unfold Tally.Reserves
  rw [hstate, hres]
  exact h

/-! ### The end of a service (R131, R132, R134) -/

/-- The engine that sends its update to the miss list holds no reservation. -/
theorem Ledger.sendToMissList_reservation (r : MissReason) (l : Bool) (x : Ledger) :
    (x.sendToMissList r l).tally.reservation = none := by
  unfold Ledger.sendToMissList
  split
  · rfl
  · next u rest _ => exact (congrArg Tally.reservation (Ledger.miss_tally_frame r l u _) :)

/-- A loss ends the reservation. -/
theorem Ledger.loss_reservation (m : Image) (l : Bool) (x : Ledger) :
    (x.loss m l).tally.reservation = none := by
  unfold Ledger.loss
  dsimp only
  split
  · exact Ledger.sendToMissList_reservation _ _ _
  · rfl

/-- An ERROR of the cycle ends the reservation. -/
theorem Ledger.fail_reservation (r : MissReason) (x : Ledger) : (x.fail r).tally.reservation = none :=
  Ledger.sendToMissList_reservation _ _ _

/-- A write notice can break a reservation, but makes none. -/
theorem Tally.Reserves.break {t : Tally} (h : t.Reserves) (m : Image) (a : Nat) (ws : List WriteWord) :
    (t.breakReservation m a ws).Reserves := by
  unfold Tally.breakReservation
  split
  · next r hr =>
    split
    · exact fun hs => absurd (h hs) (by simp [hr])
    · exact h
  · exact h

/-! ### The steps that leave the engine's service -/

theorem State.takeRecord_tally (s : State) : s.takeRecord.tally = s.tally := by
  unfold State.takeRecord
  split
  · rfl
  · dsimp only
    split
    · simp
    · next e _ =>
      obtain ⟨M, L, al, hr, -⟩ := State.handleRecord_eq _ e
        { s with intake := { s.intake with queue := _ } }.afterRemoval
      rw [hr]
      simp

theorem State.takeCommand_service (s : State) : Tally.SameService s.tally s.takeCommand.tally := by
  unfold State.takeCommand
  split
  · exact .refl _
  · exact State.dealWith_service _ _ _

theorem State.takeClockWord_service (s : State) : Tally.SameService s.tally s.takeClockWord.tally := by
  unfold State.takeClockWord
  split
  · exact .refl _
  · exact State.stepClock_service _ _

theorem State.installUnits_tally (old new : Image) (had : Bool) (s : State) :
    (s.installUnits old new had).tally = s.tally := by
  obtain ⟨hr, sp, rd, al, h, -⟩ := State.installUnits_eq old new had s
  rw [h]

theorem State.completeFetch_tally (s : State) : s.completeFetch.tally = s.tally := by
  unfold State.completeFetch
  dsimp only
  split <;> split <;> simp [State.endFetch, State.startApply, State.installUnits_tally]

theorem State.completeValidation_service (s : State) :
    Tally.SameService s.tally s.completeValidation.tally := by
  unfold State.completeValidation
  split
  · exact State.afterApply_service _
  · exact .refl _

theorem State.install_service (s : State) : Tally.SameService s.tally s.install.tally := by
  have h := State.afterApply_service
    ((s.installUnits s.cfg s.candidateImage s.setup.active.isSome).announceInstalled s.candidateImage)
  rwa [State.announceInstalled_tally, State.installUnits_tally] at h

theorem State.closeDue_service (s : State) : Tally.SameService s.tally s.closeDue.tally := by
  unfold State.closeDue
  split
  · exact Books.closeGroup_service _ _ _ _
  · exact .refl _

/-- The effects that reach the Tally Engine: RESET, the posts of the Line Unit, the arbiter's decision and the
engine's own steps. -/
inductive TallyEffect (s : State) : State → Prop where
  | reset (r : Bool) (b : BitVec 8) :
      TallyEffect s (State.hardReset s.pending r s.pass.port.orphaned b s.tally.draws)
  | boundaryExpiry : TallyEffect s s.closeDue
  | clockWord : TallyEffect s s.takeClockWord
  | command : TallyEffect s s.takeCommand
  | validated : TallyEffect s s.completeValidation
  | quiesced : TallyEffect s s.forceClose
  | installed : TallyEffect s s.install
  | arbitrate : TallyEffect s s.arbitrate
  | missHandOver : TallyEffect s s.handOverMiss
  | backoffExpiry (h : s.tally.state = .backoff) :
      TallyEffect s { s with tally := { s.tally with state := .readWait, backoff := none } }
  | updateIntoHand (h : s.tally.state = .idle) :
      TallyEffect s { s with tally := { s.tally with losses := 0, lockedLoss := false, state := .readWait } }
  | reserveAnswer (answer : ReadAnswer 8) : TallyEffect s (s.takeReserveRead answer)
  | conditionalAnswer (answer : Answer) : TallyEffect s (s.takeConditionalWrite answer)

/-- Every other effect leaves the engine as it is. -/
theorem Effect.tally {s u : State} (h : Effect s u) : u.tally = s.tally ∨ TallyEffect s u := by
  cases h
  case reset r b _ => exact .inr (.reset r b)
  case boundaryExpiry => exact .inr .boundaryExpiry
  case clockWord => exact .inr .clockWord
  case command => exact .inr .command
  case validated => exact .inr .validated
  case quiesced => exact .inr .quiesced
  case installed => exact .inr .installed
  case arbitrate => exact .inr .arbitrate
  case missHandOver => exact .inr .missHandOver
  case backoffExpiry hs => exact .inr (.backoffExpiry hs)
  case updateIntoHand hs => exact .inr (.updateIntoHand hs)
  case reserveAnswer a => exact .inr (.reserveAnswer a)
  case conditionalAnswer a => exact .inr (.conditionalAnswer a)
  all_goals refine .inl ?_
  case recordTake => exact s.takeRecord_tally
  case upstreamWrite => exact (State.presentWrite_leaves _ _ s).tally
  case upstreamRead => exact (State.presentRead_leaves _ _ s).tally
  case holdRelease => exact s.releaseHold_leaves.tally
  case readRelease => exact s.releaseRead_leaves.tally
  case capture => exact s.capture_leaves.tally
  case generation => exact s.takeGeneration_leaves.tally
  case consumer => exact s.takeConsumer_leaves.tally
  case recordAnswer a _ => exact (s.answerRecordWrite_leaves a).tally
  case indexAnswer a _ => exact (s.answerIndexWrite_leaves a).tally
  case initialisingAnswer a => exact (s.answerInitialisingWrite_leaves a).tally
  case fetchAnswer a _ => exact (s.answerFetch_leaves a).tally
  case fetchEnd => exact s.completeFetch_tally
  all_goals simp [State.advance]

/-! ### Conditions that the engine's own steps keep -/

/-- A condition on the engine that its service keeps: the grants, losses, faults, answers and hand-overs. -/
structure Tally.Kept (T : Tally → Prop) : Prop where
  same : ∀ a b : Tally, Tally.SameService a b → T a → T b
  reset : ∀ draws, T (.hardReset draws)
  broken : ∀ (m : Image) (a : Nat) (ws : List WriteWord) (t : Tally), T t → T (t.breakReservation m a ws)
  readOut : ∀ (t : Tally) r, T t → T { t with state := .readOut, reservation := some r }
  granted : ∀ t : Tally, T t → T { t with reservation := none }
  loss : ∀ (m : Image) (l : Bool) (x : Ledger), T x.tally → T (x.loss m l).tally
  fail : ∀ (r : MissReason) (x : Ledger), T x.tally → T (x.fail r).tally
  missTaken : ∀ (t : Tally) x rest, t.misses = x :: rest → T t → T { t with misses := rest }
  retry : ∀ t : Tally, t.state = .backoff → T t → T { t with state := .readWait, backoff := none }
  inHand : ∀ t : Tally, t.state = .idle → T t → T { t with losses := 0, lockedLoss := false, state := .readWait }
  computed : ∀ (t : Tally) ws, T t → T { t with computed := some ws, state := .writeWait }
  finish : ∀ t : Tally, T t → T t.finish

variable {T : Tally → Prop}

theorem Tally.Kept.writeNotice (hT : Tally.Kept T) (a : Nat) (ws : List WriteWord) {s : State} (h : T s.tally) :
    T (s.writeNotice a ws).tally := by
  cases hw : s.setup.part.working
  · rw [State.writeNotice_resting a ws s hw]
    exact hT.broken _ _ _ _ h
  · obtain ⟨x, hx, e⟩ := State.writeNotice_working a ws s hw
    rw [e]
    refine hT.broken _ _ _ _ ?_
    rw [hx]
    exact hT.same _ _ (State.matchNotice_service _ _ _ _) h

theorem Tally.Kept.grantTally (hT : Tally.Kept T) (c : Client) {s : State} (h : T s.tally) :
    T (s.grantTally c).tally := by
  unfold State.grantTally
  split
  · exact h
  · dsimp only
    split
    · exact hT.readOut _ _ h
    · exact hT.granted _ h

theorem Tally.Kept.grant (hT : Tally.Kept T) (c : Choice) {s : State} (h : T s.tally) : T (s.grant c).tally := by
  cases c with
  | passthrough =>
    show T s.grantPassthrough.tally
    unfold State.grantPassthrough
    split
    · exact hT.writeNotice _ _ (s := { s with pass := { s.pass with port := .passthrough } }) h
    · exact h
    · exact h
  | fetch => exact h
  | mirror g => exact h
  | tally client => exact hT.grantTally client h
  | writer client txn => exact h

theorem Tally.Kept.decideAmong (hT : Tally.Kept T) (c : Option Client) {s : State} (h : T s.tally) :
    T (s.decideAmong c).tally := by
  unfold State.decideAmong
  split
  · exact hT.grant _ h
  · exact h

theorem Tally.Kept.arbitrate (hT : Tally.Kept T) {s : State} (h : T s.tally) : T s.arbitrate.tally := by
  unfold State.arbitrate
  split
  · exact hT.decideAmong _ (hT.loss _ _ _ h)
  · exact hT.decideAmong _ h

theorem Tally.Kept.takeReserveRead (hT : Tally.Kept T) (answer : ReadAnswer 8) {s : State} (h : T s.tally) :
    T (s.takeReserveRead answer).tally := by
  unfold State.takeReserveRead
  cases answer with
  | error => exact hT.fail _ _ h
  | ok d =>
    dsimp only
    split
    · exact hT.loss _ _ _ h
    · split
      · exact h
      · exact hT.computed _ _ h

theorem Tally.Kept.takeConditionalWrite (hT : Tally.Kept T) (answer : Answer) {s : State} (h : T s.tally) :
    T (s.takeConditionalWrite answer).tally := by
  cases answer with
  | ok => exact hT.finish _ h
  | error => exact hT.fail _ _ h

theorem Tally.Kept.handOverMiss (hT : Tally.Kept T) {s : State} (h : T s.tally) : T s.handOverMiss.tally := by
  unfold State.handOverMiss
  split
  · exact h
  · next hmisses => exact hT.missTaken _ _ _ hmisses h

theorem Tally.Kept.effect (hT : Tally.Kept T) {s u : State} (e : Effect s u) (h : T s.tally) : T u.tally := by
  rcases e.tally with hsame | he
  · rwa [hsame]
  cases he with
  | reset r b => exact hT.reset _
  | boundaryExpiry => exact hT.same _ _ s.closeDue_service h
  | clockWord => exact hT.same _ _ s.takeClockWord_service h
  | command => exact hT.same _ _ s.takeCommand_service h
  | validated => exact hT.same _ _ s.completeValidation_service h
  | quiesced => exact hT.same _ _ (Books.forcedClose_service _ _ _) h
  | installed => exact hT.same _ _ s.install_service h
  | arbitrate => exact hT.arbitrate h
  | missHandOver => exact hT.handOverMiss h
  | backoffExpiry hs => exact hT.retry _ hs h
  | updateIntoHand hs => exact hT.inHand _ hs h
  | reserveAnswer a => exact hT.takeReserveRead a h
  | conditionalAnswer a => exact hT.takeConditionalWrite a h

/-! ### Every step (R131) -/

theorem Tally.reserves_kept : Tally.Kept Tally.Reserves where
  same _ _ hsame h := h.same hsame
  reset _ := .of_none rfl
  broken _ _ _ _ h := h.break _ _ _
  readOut _ _ _ := .of_service (.inl rfl)
  granted _ _ := .of_none rfl
  loss _ _ _ _ := .of_none (Ledger.loss_reservation _ _ _)
  fail _ _ _ := .of_none (Ledger.fail_reservation _ _)
  missTaken _ _ _ _ h := h
  retry _ hs h := .of_none (h (.inr (.inr hs)))
  inHand _ hs h := .of_none (h (.inl hs))
  computed _ _ _ := .of_service (.inr rfl)
  finish _ _ := .of_none rfl

/-- Settles O55, by the engine's own steps; every other effect leaves its service. -/
theorem reservationStaysInServiceAtEveryStep : Obligations.ReservationStaysInServiceAtEveryStep := by
  refine kept_by_every_step (fun _ _ h => h) (fun s h => ?fine) (fun _ h => h)
    (fun _ _ h e => Tally.reserves_kept.effect e h)
  case fine => unfold State.fineInterval; split <;> exact h

end Sys2Proof.Machine
end

section
/-! SUPPORT. The mirror write that ends each step (R171, R173), and the Setup Unit's images: canonical and validated
after every step (R149, R151, R157, R159); the reset state meets every invariant. -/

namespace Sys2Proof.Machine

/-! ### The request that ends a step (R171, R173) -/

/-- The mirror write in hand after a request: none is made while FETCHING, one in hand is kept, and otherwise the
first owed group is taken. -/
theorem Alerts.request_mirror (p : Part) (a : Alerts) : (a.request p).mirror =
    if p = .fetching then a.mirror
    else match a.mirror with
      | some g => some g
      | none => groupOrder.find? a.owed.has := by
  unfold Alerts.request
  cases p <;> cases h : a.mirror <;> simp [h]

/-- A request with a mirror write in hand keeps it. -/
theorem State.requestMirror_of_some {s : State} {g : Group} (h : s.alerts.mirror = some g) :
    s.requestMirror.alerts.mirror = some g := by
  rw [State.requestMirror_alerts, Alerts.request_mirror, h]
  split <;> rfl

/-- A request with none in hand takes the first owed group, and none while FETCHING. -/
theorem State.requestMirror_of_none {s : State} (h : s.alerts.mirror = none) :
    s.requestMirror.alerts.mirror =
      if s.setup.part = .fetching then none else groupOrder.find? s.alerts.owed.has := by
  rw [State.requestMirror_alerts, Alerts.request_mirror, h]

/-- Every group stands in the order of R171. -/
theorem mem_groupOrder (g : Group) : g ∈ groupOrder := by cases g <;> decide

/-- After a request no owed group is left unrequested. -/
theorem State.owedGroupsRequested_requestMirror (s : State) : OwedGroupsRequested s.requestMirror := by
  intro hpart hmirror g
  rw [State.requestMirror_setup] at hpart
  rw [requestMirror_owed]
  cases h : s.alerts.mirror with
  | some x => cases (State.requestMirror_of_some h).symm.trans hmirror
  | none =>
    rw [State.requestMirror_of_none h, if_neg hpart, List.find?_eq_none] at hmirror
    simpa using hmirror g (mem_groupOrder g)

/-- A step that changes the state ends with a request; nothing before it touched the mirror write in hand but the
answer to that write, which took it. -/
theorem exec_request {c : Instr} {s t : State} (h : c ≠ .resetAssert) (g : ∀ straps, c ≠ .resetRelease straps)
    (e : exec c s = .next t) (ht : t ≠ s) : ∃ u : State, t = u.requestMirror ∧
      ((∀ answer, c ≠ .mirrorWriteResponse answer) → u.alerts.mirror = s.alerts.mirror) ∧
      ((∃ answer, c = .mirrorWriteResponse answer) → u.alerts.mirror = none) := by
  by_cases hc : ∃ answer, c = .mirrorWriteResponse answer
  · obtain ⟨answer, rfl⟩ := hc
    have hstep : stepWhen (s.steady && s.pass.port.isMirror) (State.answerMirror answer) s = .next t := e
    rcases stepWhen_next hstep with ⟨-, rfl⟩ | ⟨-, rfl⟩
    · exact absurd rfl ht
    · refine ⟨_, rfl, fun hne => absurd rfl (hne answer), fun _ => ?_⟩
      cases answer with
      | ok => rfl
      | error => exact Alerts.latch_mirror _ _
  · have hne (answer : Answer) : c ≠ .mirrorWriteResponse answer := fun hc' => hc ⟨answer, hc'⟩
    rcases exec_mirror h g hne e with rfl | ⟨u, hu, rfl⟩
    · exact absurd rfl ht
    · exact ⟨u, rfl, fun _ => hu, fun hc' => absurd hc' hc⟩

/-- Settles O57, by the request that ends every step that has an effect. -/
theorem owedGroupsAreRequestedByEveryStep : Obligations.OwedGroupsAreRequestedByEveryStep := by
  refine ⟨?kept, fun s => ?request, fun c s t hassert hrelease e ht => ?step⟩
  case kept =>
    intro s t hs e
    unfold step at e
    split at e
    · injection e with e
      subst e
      unfold State.fineInterval
      split <;> exact hs
    · rcases exec_effect e with rfl | ⟨u, -, rfl⟩
      · exact hs
      · exact u.owedGroupsRequested_requestMirror
  case request => rw [requestMirror_eq, State.requestMirror_alerts, Alerts.request_mirror]; rfl
  case step =>
    obtain ⟨u, rfl, hkept, htaken⟩ := exec_request hassert hrelease e ht
    refine ⟨fun g hg hne => State.requestMirror_of_some ((hkept hne).trans hg), fun hnone => ?_⟩
    have hu : u.alerts.mirror = none := by
      by_cases hc : ∃ answer, c = .mirrorWriteResponse answer
      · exact htaken hc
      · exact (hkept fun answer hc' => hc ⟨answer, hc'⟩).trans (hnone.resolve_right hc)
    rw [State.requestMirror_of_none hu, State.requestMirror_setup, requestMirror_owed]
    rfl

end Sys2Proof.Machine
end

section
/-! SUPPORT. The Setup Unit over every step: its images stay canonical, the setup in force validated (R149, R151,
R157, R159); and the reset state meets every invariant. -/

namespace Sys2Proof.Machine

/-! ### What the commands and the apply write of the Setup Unit -/

/-- A condition on the Setup Unit that no bookkeeping of commands and pending applies touches, and that the start of
an apply keeps (R148, R149). -/
structure Setup.Kept (Q : Setup → Prop) : Prop where
  marks : ∀ (u : Setup) w p l, Q u → Q { u with waiting := w, pendingApply := p, lastCommand := l }
  start : ∀ u : Setup, Q u → Q { u with candidate := some (u.shadow.below 1352), part := .applying .validate }

variable {Q : Setup → Prop}

theorem Setup.Kept.startApply (hQ : Setup.Kept Q) (s : State) (h : Q s.setup) : Q s.startApply.setup :=
  hQ.start s.setup h

theorem Setup.Kept.dealWith (hQ : Setup.Kept Q) (w a : Word) (s : State) (h : Q s.setup) :
    Q (s.dealWith w a).setup := by
  unfold State.dealWith
  split
  · exact h
  · split <;> exact h
  · exact hQ.marks _ _ _ _ h
  · split
    · exact h
    · show Q (s.command w a).1.setup
      rw [State.command_setup]
      exact h

theorem Setup.Kept.afterApply (hQ : Setup.Kept Q) (s : State) (h : Q s.setup) : Q s.afterApply.setup := by
  have resume (u : State) (hu : Q u.setup) : Q (if u.setup.pendingApply then
      { u with setup := { u.setup with pendingApply := false } }.startApply else u).setup := by
    split
    · exact hQ.startApply _ (hQ.marks _ _ false _ hu)
    · exact hu
  unfold State.afterApply
  split
  · exact resume _ (hQ.dealWith _ _ _ (hQ.marks _ none _ _ h))
  · exact resume _ h

theorem Setup.Kept.takeCommand (hQ : Setup.Kept Q) (s : State) (h : Q s.setup) : Q s.takeCommand.setup := by
  unfold State.takeCommand
  split
  · exact h
  · exact hQ.dealWith _ _ _ (hQ.marks _ _ _ _ h)

theorem Setup.Kept.takeGeneration (hQ : Setup.Kept Q) (s : State) (h : Q s.setup) :
    Q s.takeGeneration.setup := by
  unfold State.takeGeneration State.testGeneration
  split
  · exact h
  · split
    · exact h
    · exact hQ.startApply _ h
    · split
      · exact h
      · exact hQ.startApply _ h
    · exact hQ.marks _ _ _ _ h

/-- The end of a fetch: the setup rejected or installed, and perhaps an apply started (R147, R189). -/
theorem Setup.Kept.completeFetch (hQ : Setup.Kept Q) (s : State)
    (hreject : Q { s.setup with part := .unset, candidate := none })
    (hinstall : s.candidateImage.validate s.setup.blockAddress = none →
      Q { s.setup with active := some s.candidateImage, candidate := none, part := .active }) :
    Q s.completeFetch.setup := by
  have ended (u : State) (hu : Q u.setup) : Q (if s.setup.shadow.generation = s.candidateImage.generation
      then u.endFetch else u.endFetch.startApply).setup := by
    split
    · exact hQ.marks _ _ _ _ hu
    · exact hQ.startApply _ (hQ.marks _ _ _ _ hu)
  unfold State.completeFetch
  apply ended
  split
  · exact hreject
  · next hvalid =>
    rw [State.announceInstalled_setup, State.installUnits_setup]
    exact hinstall hvalid

/-- The end of a validation: the apply ends in the state it started from, or QUIESCE begins (R156, R157). -/
theorem Setup.Kept.completeValidation (hQ : Setup.Kept Q) (s : State)
    (hreject : Q { s.setup with candidate := none, part := s.setup.resting })
    (hquiesce : s.candidateImage.validate s.setup.blockAddress = none →
      Q { s.setup with part := .applying .quiesce }) : Q s.completeValidation.setup := by
  unfold State.completeValidation
  split
  · exact hQ.afterApply _ hreject
  · next hvalid => exact hquiesce hvalid

/-- The installation, and what resumes after it (R159, R160). -/
theorem Setup.Kept.install (hQ : Setup.Kept Q) (s : State)
    (h : Q { s.setup with active := some s.candidateImage, candidate := none, part := .active }) :
    Q s.install.setup := by
  refine hQ.afterApply _ ?_
  rw [State.announceInstalled_setup, State.installUnits_setup]
  exact h

@[simp] theorem State.capture_setup_of_none {s : State} (h : s.pass.notice = none) :
    s.capture.setup = s.setup := by
  unfold State.capture; rw [h]

@[simp] theorem State.takeClockWord_setup (s : State) : s.takeClockWord.setup = s.setup := by
  unfold State.takeClockWord; split <;> simp

@[simp] theorem State.takeConsumer_setup (s : State) : s.takeConsumer.setup = s.setup := by
  unfold State.takeConsumer
  split
  · rfl
  · exact (State.consumerNotice_outer _ _ _).2

/-- The effects outside the Setup Unit leave it as it is. -/
theorem Effect.setup {s u : State} (h : Effect s u) : u.setup = s.setup ∨
    (∃ r b, u = State.hardReset s.pending r s.pass.port.orphaned b s.tally.draws) ∨
    u = s.capture ∨ u = s.takeGeneration ∨ u = s.takeCommand ∨
    (s.setup.part = .fetching ∧ ∃ answer, u = s.answerFetch answer) ∨
    (s.setup.part = .fetching ∧ u = s.completeFetch) ∨
    (s.setup.part = .applying .validate ∧ u = s.completeValidation) ∨
    (s.setup.part = .applying .quiesce ∧ u = s.forceClose) ∨
    (s.setup.part = .applying .drain ∧ s.ringsClear = true ∧ u = s.install) := by
  cases h
  case reset r b _ => exact .inr (.inl ⟨r, b, rfl⟩)
  case capture => exact .inr (.inr (.inl rfl))
  case generation => exact .inr (.inr (.inr (.inl rfl)))
  case command => exact .inr (.inr (.inr (.inr (.inl rfl))))
  case fetchAnswer a hp => exact .inr (.inr (.inr (.inr (.inr (.inl ⟨hp, a, rfl⟩)))))
  case fetchEnd hp => exact .inr (.inr (.inr (.inr (.inr (.inr (.inl ⟨hp, rfl⟩))))))
  case validated hp => exact .inr (.inr (.inr (.inr (.inr (.inr (.inr (.inl ⟨hp, rfl⟩)))))))
  case quiesced hp => exact .inr (.inr (.inr (.inr (.inr (.inr (.inr (.inr (.inl ⟨hp, rfl⟩))))))))
  case installed hp hr => exact .inr (.inr (.inr (.inr (.inr (.inr (.inr (.inr (.inr ⟨hp, hr, rfl⟩))))))))
  all_goals exact .inl (by simp [State.advance])

/-! ### Canonical images -/

/-- The three images of the Setup Unit are in canonical form. -/
def Setup.Canonical (u : Setup) : Prop :=
  u.shadow.wf = true ∧ (∀ m, u.candidate = some m → m.wf = true) ∧ ∀ m, u.active = some m → m.wf = true

theorem Setup.canonical_kept : Setup.Kept Setup.Canonical where
  marks _ _ _ _ h := h
  start u h := by
    obtain ⟨hshadow, -, hactive⟩ := h
    exact ⟨hshadow, fun m hm => Option.some.inj hm ▸ Image.wf_below _ _ hshadow, hactive⟩

/-- The candidate read as an image is canonical, also where there is none. -/
theorem Setup.Canonical.candidateImage {s : State} (h : s.setup.Canonical) : s.candidateImage.wf = true := by
  unfold State.candidateImage
  cases hc : s.setup.candidate with
  | none => rfl
  | some m => exact h.2.1 m hc

theorem Setup.Canonical.unset {u : Setup} (h : u.Canonical) (p : Part) :
    ({ u with candidate := none, part := p } : Setup).Canonical :=
  ⟨h.1, nofun, h.2.2⟩

theorem Setup.Canonical.installed {s : State} (h : s.setup.Canonical) :
    ({ s.setup with active := some s.candidateImage, candidate := none, part := .active } : Setup).Canonical :=
  ⟨h.1, nofun, fun _ hm => (Option.some.inj hm) ▸ h.candidateImage⟩

theorem Setup.Canonical.answerFetch {s : State} (h : s.setup.Canonical) (answer : ReadAnswer 16) :
    (s.answerFetch answer).setup.Canonical := by
  cases answer with
  | error => exact h.unset .unset
  | ok d =>
    have hfill := Image.wf_fill s.setup.shadow (16 * s.setup.fetchPosition) d.toList h.1
    refine ⟨hfill, fun m hm => ?_, h.2.2⟩
    change (if s.setup.fetchPosition + 1 = 128 then _ else s.setup.candidate) = some m at hm
    split at hm
    · exact Option.some.inj hm ▸ Image.wf_below _ _ hfill
    · exact h.2.1 m hm

theorem Effect.canonical {s u : State} (h : s.setup.Canonical) (e : Effect s u) : u.setup.Canonical := by
  have hK := Setup.canonical_kept
  rcases e.setup with hsame | ⟨r, b, rfl⟩ | rfl | rfl | rfl | ⟨-, a, rfl⟩ | ⟨-, rfl⟩ | ⟨-, rfl⟩ | ⟨-, rfl⟩ |
    ⟨-, -, rfl⟩
  · rwa [hsame]
  · exact ⟨rfl, nofun, nofun⟩
  · unfold State.capture
    split
    · exact h
    · exact ⟨Setup.wf_capture _ _ _ h.1, h.2⟩
  · exact hK.takeGeneration s h
  · exact hK.takeCommand s h
  · exact h.answerFetch a
  · exact hK.completeFetch s (h.unset .unset) fun _ => h.installed
  · exact hK.completeValidation s (h.unset _) fun _ => h
  · exact h
  · exact hK.install s h.installed

/-! ### The setup in force is validated -/

/-- The active setup has passed validation, and an apply has a candidate that has passed it from QUIESCE on. -/
def Setup.InForceValidated (u : Setup) : Prop :=
  (∀ m, u.active = some m → Validated u m) ∧
  ∀ p, u.part = .applying p → ∃ m, u.candidate = some m ∧ (p ≠ .validate → Validated u m)

theorem Setup.inForceValidated_kept : Setup.Kept Setup.InForceValidated where
  marks _ _ _ _ h := h
  start _ h := ⟨h.1, fun _ hp => ⟨_, rfl, fun hne => absurd (Part.applying.inj hp).symm hne⟩⟩

/-- Outside an apply the candidate does not matter. -/
theorem Setup.InForceValidated.ended {u : Setup} (h : u.InForceValidated) {p : Part}
    (hp : ∀ q, p ≠ .applying q) : ({ u with candidate := none, part := p } : Setup).InForceValidated :=
  ⟨h.1, fun q hq => absurd hq (hp q)⟩

/-- A validated candidate can be put in force. -/
theorem Setup.InForceValidated.installed {u : Setup} {m : Image} (h : Validated u m) :
    ({ u with active := some m, candidate := none, part := .active } : Setup).InForceValidated :=
  ⟨fun _ hm => Option.some.inj hm ▸ h, fun _ hq => by cases hq⟩

/-- The apply's candidate is the image that it validates and installs. -/
theorem Setup.InForceValidated.candidate {s : State} (h : s.setup.InForceValidated) {p : Phase}
    (hp : s.setup.part = .applying p) : s.setup.candidate = some s.candidateImage ∧
      (p ≠ .validate → Validated s.setup s.candidateImage) := by
  obtain ⟨m, hm, hvalid⟩ := h.2 p hp
  rw [State.candidateImage, hm]
  exact ⟨rfl, hvalid⟩

theorem Effect.inForceValidated {s u : State} (h : s.setup.InForceValidated) (e : Effect s u) :
    u.setup.InForceValidated := by
  have hK := Setup.inForceValidated_kept
  have hresting (q : Phase) : s.setup.resting ≠ .applying q := by
    unfold Setup.resting; split <;> exact Part.noConfusion
  rcases e.setup with hsame | ⟨r, b, rfl⟩ | rfl | rfl | rfl | ⟨hp, a, rfl⟩ | ⟨hp, rfl⟩ | ⟨hp, rfl⟩ | ⟨hp, rfl⟩ |
    ⟨hp, -, rfl⟩
  · rwa [hsame]
  · exact ⟨nofun, nofun⟩
  · unfold State.capture
    split <;> exact h
  · exact hK.takeGeneration s h
  · exact hK.takeCommand s h
  · cases a with
    | error => exact h.ended fun q => Part.noConfusion
    | ok d => exact ⟨h.1, fun q hq => by cases hp.symm.trans hq⟩
  · exact hK.completeFetch s (h.ended fun q => Part.noConfusion) fun hvalid => .installed hvalid
  · exact hK.completeValidation s (h.ended hresting) fun hvalid =>
      ⟨h.1, fun q _ => ⟨_, (h.candidate hp).1, fun _ => hvalid⟩⟩
  · obtain ⟨hc, hvalid⟩ := h.candidate hp
    exact ⟨h.1, fun q _ => ⟨_, hc, fun _ => hvalid (by decide)⟩⟩
  · exact hK.install s (.installed ((h.candidate hp).2 (by decide)))

/-- Settles O58, by the steps of the Setup Unit; every other effect leaves it. -/
theorem setupInForceStaysValidated : Obligations.SetupInForceStaysValidated := by
  refine ⟨kept_by_every_step (fun _ _ h => h) (fun s h => ?fine) (fun _ h => h) fun _ _ h e => e.canonical h,
    kept_by_every_step (fun _ _ h => h) (fun s h => ?fineValidated) (fun _ h => h)
      fun _ _ h e => e.inForceValidated h⟩
  case fine => unfold State.fineInterval; split <;> exact h
  case fineValidated => unfold State.fineInterval; split <;> exact h

end Sys2Proof.Machine
end

section
/-! SUPPORT. RESET: the hard-reset values of every unit, the placement, and what a part held in RESET does
(R17, R19, R187). -/

namespace Sys2Proof.Machine

/-! ### The front of the queue -/

/-- Settles O1: the step is defined by the front command. -/
theorem stepTakesTheFrontCommand : Obligations.StepTakesTheFrontCommand := by
  intro c rest s h
  unfold step
  rw [h]

/-- Settles O2, by whether RESET is asserted. -/
theorem emptyQueuePassesAFineInterval : Obligations.EmptyQueuePassesAFineInterval := by
  intro s h
  have hstep : step s = .next s.fineInterval := by unfold step; rw [h]
  rw [hstep]
  refine ⟨fun hr => ?_, fun hr => ?_⟩ <;> simp [State.fineInterval, hr]

/-! ### The hard-reset values (R17, R38, R76, R106, R121, R142, R164, R180) -/

section HardReset
variable (pending : List Instr) (inReset : Bool) (port : Port) (base : BitVec 8) (draws : Nat)

theorem Intake.hardReset_at : Intake.hardReset.AtHardReset :=
  ⟨fun w => by simp [Intake.hardReset, WindowState.empty], rfl, rfl, rfl⟩

theorem Channels.hardReset_at : Channels.hardReset.AtHardReset :=
  ⟨fun e => by simp [Channels.hardReset, Meter.hardReset], rfl, rfl⟩

theorem LineUnit.hardReset_at : LineUnit.hardReset.AtHardReset :=
  ⟨fun n => by simp [LineUnit.hardReset, Line.hardReset, Line.AtHardReset], rfl, rfl, rfl, rfl⟩

theorem Writer.hardReset_at : Writer.hardReset.AtHardReset :=
  ⟨rfl, rfl, fun n => by simp [Writer.hardReset, Ring.cleared]⟩

theorem Alerts.hardReset_at : Alerts.hardReset.AtHardReset :=
  ⟨rfl, fun i => by simp [Alerts.hardReset], rfl, fun g => by cases g <;> rfl, rfl, rfl, rfl, rfl⟩

/-- Every unit stands in its hard-reset values, and nothing is in force. -/
theorem State.hardReset_at : (State.hardReset pending inReset port base draws).AtHardReset :=
  ⟨⟨rfl, rfl, rfl, rfl, rfl, rfl, rfl, rfl, rfl⟩, Intake.hardReset_at, Channels.hardReset_at, LineUnit.hardReset_at,
    Writer.hardReset_at, ⟨rfl, rfl, rfl, rfl, rfl, rfl, rfl, rfl, rfl⟩,
    ⟨fun _ => rfl, rfl, rfl, rfl, rfl, rfl, rfl, rfl, rfl⟩, Alerts.hardReset_at, rfl, fun _ => rfl⟩

/-- A hard reset owes no group, so no mirror write is requested after it. -/
theorem State.hardReset_requestMirror :
    (State.hardReset pending inReset port base draws).requestMirror =
      State.hardReset pending inReset port base draws := rfl

end HardReset

/-- A port that carries a transaction becomes an orphan's, a free one stays free (R17). -/
theorem Port.orphaned_iff (p : Port) :
    (p = .free → p.orphaned = .free) ∧ (p ≠ .free → p.orphaned = .orphan) := by
  cases p <;> simp [Port.orphaned]

/-- Settles O4: the reset state is a hard reset with RESET asserted. -/
theorem resetStateHoldsHardResetValues : Obligations.ResetStateHoldsHardResetValues :=
  ⟨State.hardReset_at _ _ _ _ _, rfl, rfl, rfl, rfl, rfl⟩

/-- Settles O60: the reset state holds nothing that an invariant speaks of. -/
theorem invariantsHoldAtReset : Obligations.InvariantsHoldAtReset := by
  obtain ⟨-, -, ⟨hmeters, -, -⟩, ⟨hlines, -, -, -, hhand⟩, ⟨-, -, hrings⟩, -, -, ⟨-, hcounters, -, howed, -⟩, -, -⟩ :=
    State.hardReset_at [] true .free 0 0
  change ∀ e : Fin 256, State.reset.channels.meters[e] = _ at hmeters
  change ∀ n : Fin 16, (State.reset.lines.lines[n]).AtHardReset ∧ _ at hlines
  change ∀ n : Fin 16, State.reset.writer.rings[n] = _ at hrings
  change ∀ i : Fin 4, State.reset.alerts.counters[i] = _ at hcounters
  refine ⟨fun _ => rfl, ?queues, ?counts, ?rings, fun _ _ => howed, ⟨rfl, nofun, nofun⟩, ⟨nofun, nofun⟩, ?hand⟩
  case queues => exact ⟨by decide, by decide, by decide, by decide, by decide⟩
  case counts =>
    exact ⟨by decide, by decide, fun i => by simp [hcounters], fun n => by simp [hrings], fun e => by simp [hmeters]⟩
  case rings =>
    exact ⟨nofun, fun _ => rfl, nofun, fun h => h.elim nofun nofun, fun n => by simp [hrings]⟩
  case hand =>
    refine ⟨List.nodup_nil, fun k n => ?_⟩
    obtain ⟨⟨-, -, -, -, -, -, hclosing, -, hepoch, -, hjob, -⟩, -⟩ := hlines n
    have hwaits : (State.reset.lines.lines[n]).waits k = false := by
      cases k <;> simp only [Line.waits, hclosing, hepoch, hjob, Option.isSome_none]
    rw [hwaits]
    exact iff_of_false List.not_mem_nil Bool.false_ne_true

/-- The release of RESET takes the hard-reset values at the sampled placement. -/
theorem exec_resetRelease {s : State} (straps : BitVec 8) (h : s.inReset = true) : exec (.resetRelease straps) s =
    .next (State.hardReset s.pending false s.pass.port.orphaned straps s.tally.draws) := by
  change execResetRelease straps s = _
  rw [execResetRelease, stepWhen_can _ _ h, State.hardReset_requestMirror]

/-- Settles O5: both commands take the hard-reset values, and the release samples the straps. -/
theorem resetCommandsTakeHardResetValues : Obligations.ResetCommandsTakeHardResetValues := by
  refine ⟨fun s => ?assert, fun straps s hs => ?release⟩
  case assert =>
    obtain ⟨hfree, horphan⟩ := s.pass.port.orphaned_iff
    exact ⟨_, rfl, State.hardReset_at _ _ _ _ _, rfl, rfl, rfl, rfl, hfree, horphan⟩
  case release =>
    obtain ⟨hfree, horphan⟩ := s.pass.port.orphaned_iff
    refine ⟨_, exec_resetRelease straps hs, State.hardReset_at _ _ _ _ _, rfl, rfl, rfl, hfree, horphan, rfl, ?_, rfl⟩
    simp [State.fetchTxn, State.hardReset, Setup.hardReset, Setup.blockAddress]

/-! ### The placement (R19) -/

/-- A word number names the word of the setup block in which the address lies (R144). -/
theorem Setup.wordNumber_eq_some {u : Setup} {a i : Nat} (h : u.wordNumber a = some i) :
    u.blockAddress ≤ a ∧ a < u.blockAddress + 8192 ∧ i = (a - u.blockAddress) / 4 := by
  unfold Setup.wordNumber at h
  split at h
  · next hin => exact ⟨hin.1, hin.2, (Option.some.inj h).symm⟩
  · cases h

/-- The status block is guarded wherever a setup is in force (R11). -/
theorem State.guarded_statusBlock {s : State} {a : Nat} (hp : s.setup.part = .active ∨ ∃ p, s.setup.part = .applying p)
    (ha : s.setup.active.isSome = true) (hlo : s.setup.statusAddress ≤ a) (hhi : a < s.setup.statusAddress + 256) :
    s.guarded a = true := by
  obtain ⟨m, hm⟩ := Option.isSome_iff_exists.1 ha
  rcases hp with hp | ⟨p, hp⟩ <;> simp [State.guarded, hp, hm, hlo, hhi]

/-- Settles O6: the release alone samples the straps; the addresses follow from the definitions. -/
theorem placementIsSampledAtReleaseAlone : Obligations.PlacementIsSampledAtReleaseAlone := by
  refine ⟨fun straps s t hs e => ?sampled, fun straps s t hs e => ?ignored, fun c s t hc e => ?others, fun u => ?blocks,
    fun _ => rfl, fun s g => ⟨_, rfl⟩, fun u a i h => ?words,
    fun s a hp ha hlo hhi => s.guarded_statusBlock hp ha hlo hhi⟩
  case sampled =>
    rw [exec_resetRelease straps hs] at e
    cases e
    rfl
  case ignored =>
    change execResetRelease straps s = _ at e
    rw [execResetRelease, stepWhen_cannot _ s hs] at e
    cases e
    rfl
  case others =>
    by_cases hassert : c = .resetAssert
    · subst hassert
      cases e
      rfl
    · exact (exec_outer hassert hc e).2.2
  case blocks =>
    refine ⟨by simp [Setup.blockAddress], rfl, fun h => ?_, fun h => ?_⟩ <;>
      simp [Setup.statusAddress, Setup.blockAddress, h]
  case words =>
    obtain ⟨hlo, hhi, hi⟩ := Setup.wordNumber_eq_some h
    omega

/-! ### Under RESET (R187) -/

/-- A part held in RESET is not steady: no internal step and no response arises. -/
theorem State.steady_of_inReset {s : State} (h : s.inReset = true) : s.steady = false := by
  simp [State.steady, h]

theorem State.commandReady_of_inReset {s : State} (h : s.inReset = true) (codes : Nat → Bool) :
    s.commandReady codes = false := by simp [State.commandReady, h]

theorem State.portOpen_of_inReset {s : State} (h : s.inReset = true) : s.portOpen = false := by
  simp [State.portOpen, State.steady_of_inReset h]

/-- A write burst that the port can carry is presented at a port that is open. -/
theorem exec_upstreamWrite {a : Word} {ws : List WriteWord} {s : State} (h : burstWellFormed a ws.length = true) :
    exec (.upstreamWrite a ws) s = stepWhen s.portOpen (State.presentWrite a.toNat ws) s := if_pos h

/-- A read burst that the port can carry is presented at a port that is open. -/
theorem exec_upstreamRead {a : Word} {es : List (BitVec 4)} {s : State} (h : burstWellFormed a es.length = true) :
    exec (.upstreamRead a es) s = stepWhen s.portOpen (State.presentRead a.toNat es) s := if_pos h

/-- Every command but RESET and the discarded response waits for the release. -/
theorem exec_of_inReset {c : Instr} {s : State} (h : s.inReset = true) (hw : c.wellFormed = true)
    (hassert : c ≠ .resetAssert) (hrelease : ∀ straps, c ≠ .resetRelease straps)
    (hdiscard : c ≠ .discardedDownstreamResponse) : exec c s = .next s := by
  have hsteady := State.steady_of_inReset h
  cases c
  case resetAssert => exact absurd rfl hassert
  case resetRelease straps => exact absurd rfl (hrelease straps)
  case discardedDownstreamResponse => exact absurd rfl hdiscard
  case upstreamWrite a ws =>
    rw [exec_upstreamWrite hw]
    exact stepWhen_cannot _ s (State.portOpen_of_inReset h)
  case upstreamRead a es =>
    rw [exec_upstreamRead hw]
    exact stepWhen_cannot _ s (State.portOpen_of_inReset h)
  case tickPulse => exact stepWhen_cannot _ s (by rw [h]; rfl)
  case noCommand => exact stepWhen_cannot _ s (State.commandReady_of_inReset h _)
  case closeBins => exact stepWhen_cannot _ s (by rw [State.commandReady_of_inReset h]; rfl)
  case restart => exact stepWhen_cannot _ s (by rw [State.commandReady_of_inReset h]; rfl)
  case reprime => exact stepWhen_cannot _ s (State.commandReady_of_inReset h _)
  case transferCounters => exact stepWhen_cannot _ s (State.commandReady_of_inReset h _)
  case injectCheckFault => exact stepWhen_cannot _ s (State.commandReady_of_inReset h _)
  case undefinedCommand => exact stepWhen_cannot _ s (State.commandReady_of_inReset h _)
  case assemblyTimeout w => simp [exec, execAssemblyTimeout, stepWhen, hsteady]
  case changeoverTimerExpiry n => simp [exec, execChangeoverTimerExpiry, stepWhen, hsteady]
  case backoffExpiry => simp [exec, execBackoffExpiry, stepWhen, hsteady]
  case updateIntoHand => simp [exec, execUpdateIntoHand, stepWhen, hsteady]
  all_goals exact stepWhen_cannot _ s (by simp [hsteady, h])

/-- Settles O7, by what each command waits for. -/
theorem nothingElseHappensUnderReset : Obligations.NothingElseHappensUnderReset := by
  refine ⟨fun c s h hw hassert hrelease hdiscard => exec_of_inReset h hw hassert hrelease hdiscard,
    fun s h => ?outputs, fun s h => ?discarded⟩
  case outputs => exact ⟨by simp [State.uready, h], by simp [State.alertOutput, h]⟩
  case discarded => exact stepWhen_eq State.freePort s (by rw [h]; rfl)

end Sys2Proof.Machine
end

section
/-! SUPPORT. The Line Unit's books over every step: a condition that closes, deliveries and credits keep is kept by
every step that makes them; and the hand-over list names each waiting snapshot once (R98). -/

namespace Sys2Proof.Machine

/-! ### Conditions that the operations on the books keep -/

/-- A condition on the books that closes, deliveries, hand-overs and the commands keep, whatever the clock, the
boundaries, the service of a queued update and the reports that keep the counters' width. -/
structure Books.Kept (Q : Books → Prop) : Prop where
  closeGroup : ∀ (m : Image) (h : Fin 16) (we : Bool) (x : Books), Q x → Q (x.closeGroup m h we)
  closeJob : ∀ (n : Fin 16) (code : Nat) (x : Books), Q x → Q (x.closeJob n code)
  deliver : ∀ (m : Image) (n : Fin 16) (e : LineEvent) (x : Books), Q x → Q (x.deliver m n e)
  handOver : ∀ s : State, Q s.books → Q s.handOverHead.books
  timing : ∀ (x : Books) c b, Q x → Q { x with lines := { x.lines with clock := c, bounds := b } }
  ledger : ∀ (x : Books) (y : Ledger), y.tally.queue.length ≤ x.ledger.tally.queue.length →
    (x.ledger.alerts.Within → y.alerts.Within) → Q x → Q { x with ledger := y }
  restart : ∀ s : State, Q s.books → Q s.restartUnits.1.books
  reprime : ∀ (s : State) (e : Fin 256), Q s.books →
    Q (s.withMeters (s.channels.meters.set e (s.channels.meters[e]).unseen)).books
  transfer : ∀ s : State, Q s.books → Q s.transferManual.1.books
  reset : ∀ (s : State) r b, Q (State.hardReset s.pending r s.pass.port.orphaned b s.tally.draws).books
  tick : ∀ s : State, Q s.books → Q s.tick.books
  advance : ∀ s : State, Q s.books → Q s.advance.books
  staleExpiry : ∀ (s : State) (e : Fin 256), Q s.books → Q (s.expireStale e).books
  changeoverExpiry : ∀ (s : State) (n : Fin 16), Q s.books → Q ({ s with lines := { s.lines with
    lines := s.lines.lines.set n { s.lines.lines[n] with state := .running, timer := none } } } : State).books
  reportExpiry : ∀ s : State, Q s.books → Q s.expireReport.books
  recordTake : ∀ s : State, Q s.books → Q s.takeRecord.books
  pause : ∀ (x : Books) p, Q x → Q { x with channels := { x.channels with pause := p } }
  units : ∀ (s : State) old new had, Q s.books → Q (s.installUnits old new had).books

variable {Q : Books → Prop}

/-- A step that posts nothing, reports, and leaves the channel table and the lines keeps the condition. -/
theorem Books.Kept.reported (hQ : Books.Kept Q) {s t : State} (hc : t.channels = s.channels)
    (hl : t.lines = s.lines) (ht : t.tally.queue.length ≤ s.tally.queue.length)
    (ha : s.alerts.Within → t.alerts.Within) (h : Q s.books) : Q t.books := by
  have hbooks : t.books = { s.books with ledger := t.ledger } := by
    unfold State.books
    rw [hc, hl]
  rw [hbooks]
  exact hQ.ledger _ _ ht ha h

theorem Books.Kept.foldl (f : Books → Fin 16 → Books) (hf : ∀ x n, Q x → Q (f x n)) (l : List (Fin 16)) :
    ∀ x : Books, Q x → Q (l.foldl f x) := by
  induction l with
  | nil => exact fun x h => h
  | cons n rest ih => exact fun x h => ih _ (hf x n h)

theorem Books.Kept.forwardCloses (hQ : Books.Kept Q) (m : Image) (x : Books) (h : Q x) : Q (x.forwardCloses m) := by
  refine Books.Kept.foldl _ (fun y _ hy => ?_) _ x h
  split
  · exact hQ.closeGroup _ _ _ _ hy
  · exact hy

theorem Books.Kept.forcedClose (hQ : Books.Kept Q) (old new : Image) (x : Books) (h : Q x) :
    Q (x.forcedClose old new) :=
  Books.Kept.foldl _ (fun y _ hy => hQ.closeGroup _ _ _ y hy) _ _
    (Books.Kept.foldl _ (fun y n hy => hQ.closeJob n 0 y hy) _ x h)

theorem Books.Kept.forceClose (hQ : Books.Kept Q) (s : State) (h : Q s.books) : Q s.forceClose.books :=
  hQ.forcedClose _ _ _ h

theorem Books.Kept.closeDue (hQ : Books.Kept Q) (s : State) (h : Q s.books) : Q s.closeDue.books := by
  unfold State.closeDue
  split
  · exact hQ.closeGroup _ _ _ _ h
  · exact h

theorem Books.Kept.stepClock (hQ : Books.Kept Q) (v : Word) (s : State) (h : Q s.books) :
    Q (s.stepClock v).books := by
  have latched (x : Books) (hx : Q x) : Q ((s.withBooks { x with lines := x.lines.renewBounds s.cfg }).latch
      .clockStep).books :=
    hQ.reported (s := s.withBooks { x with lines := x.lines.renewBounds s.cfg }) rfl rfl le_rfl
      (fun hw => hw.of_counters (Alerts.latch_counters _ _)) (hQ.timing x _ _ hx)
  unfold State.stepClock
  split
  · exact h
  · dsimp only
    split
    · exact latched _ (hQ.forwardCloses _ _ (hQ.timing _ _ s.lines.bounds h))
    · exact latched _ (hQ.timing _ _ s.lines.bounds h)

theorem Books.Kept.takeClockWord (hQ : Books.Kept Q) (s : State) (h : Q s.books) : Q s.takeClockWord.books := by
  unfold State.takeClockWord
  split
  · exact h
  · exact hQ.stepClock _ _ h

/-! ### A write notice and the arbiter -/

theorem Books.Kept.writeNotice (hQ : Books.Kept Q) (a : Nat) (ws : List WriteWord) (s : State) (h : Q s.books) :
    Q (s.writeNotice a ws).books := by
  have broken (u : State) (hu : Q u.books) (n : Notice) :
      Q (({ u with tally := u.tally.breakReservation s.cfg a ws }).setNotice n).books :=
    hQ.reported (s := u) rfl rfl (congrArg List.length (Tally.breakReservation_queue _ _ _ _)).le (fun hw => hw) hu
  cases hw : s.setup.part.working
  · rw [State.writeNotice_resting a ws s hw]
    exact broken s h _
  · obtain ⟨x, rfl, e⟩ := State.writeNotice_working a ws s hw
    rw [e]
    refine broken _ (State.matchNotice_keeps (P := fun u => Q u.books) (fun u hu _ => hQ.handOver u hu)
      (fun u m n e hu => hQ.deliver m n e _ hu) _ _ _ _ ?_) _
    exact hQ.reported (s := s) rfl rfl le_rfl (Desk.within_kept.notice _ _ _ _ s.desk) h

theorem Books.Kept.grantTally (hQ : Books.Kept Q) (c : Client) (s : State) (h : Q s.books) :
    Q (s.grantTally c).books := by
  unfold State.grantTally
  split
  · exact h
  · dsimp only
    split <;> exact hQ.reported (s := s) rfl rfl le_rfl (fun hw => hw) h

theorem Books.Kept.decideAmong (hQ : Books.Kept Q) (c : Option Client) (s : State) (h : Q s.books) :
    Q (s.decideAmong c).books := by
  unfold State.decideAmong
  split
  · next choice n _ =>
    cases choice with
    | passthrough =>
      show Q (s.setRunCount n).grantPassthrough.books
      unfold State.grantPassthrough
      split
      · exact hQ.writeNotice _ _ _ h
      · exact h
      · exact h
    | fetch => exact h
    | mirror g => exact hQ.reported (s := s) rfl rfl le_rfl (fun hw => hw) h
    | tally client => exact hQ.grantTally client _ h
    | writer client txn => exact h
  · exact h

theorem Books.Kept.arbitrate (hQ : Books.Kept Q) (s : State) (h : Q s.books) : Q s.arbitrate.books := by
  unfold State.arbitrate
  split
  · exact hQ.decideAmong _ _
      (hQ.reported (s := s) rfl rfl (Ledger.loss_queue _ _ _) (Ledger.loss_within _ _ s.ledger) h)
  · exact hQ.decideAmong _ _ h

/-! ### The answers to the Tally Engine -/

theorem Books.Kept.takeReserveRead (hQ : Books.Kept Q) (answer : ReadAnswer 8) (s : State) (h : Q s.books) :
    Q (s.takeReserveRead answer).books := by
  unfold State.takeReserveRead
  cases answer with
  | error => exact hQ.reported (s := s) rfl rfl (Ledger.fail_queue _ _) (Ledger.fail_within _ s.ledger) h
  | ok d =>
    dsimp only
    split
    · exact hQ.reported (s := s) rfl rfl (Ledger.loss_queue _ _ _) (Ledger.loss_within _ _ s.ledger) h
    · split
      · exact h
      · exact hQ.reported (s := s) rfl rfl le_rfl (fun hw => hw.of_counters (Alerts.latchIf_counters _ _ _)) h

theorem Books.Kept.takeConditionalWrite (hQ : Books.Kept Q) (answer : Answer) (s : State) (h : Q s.books) :
    Q (s.takeConditionalWrite answer).books := by
  cases answer with
  | ok => exact hQ.reported (s := s) rfl rfl s.tally.finish_queue (fun hw => hw) h
  | error => exact hQ.reported (s := s) rfl rfl (Ledger.fail_queue _ _) (Ledger.fail_within _ s.ledger) h

/-! ### The command word and the end of an apply -/

theorem Books.Kept.command (hQ : Books.Kept Q) (w a : Word) (s : State) (h : Q s.books) :
    Q (s.command w a).1.books := by
  unfold State.command
  split
  · unfold State.closeNamed
    split
    · exact Books.Kept.foldl _ (fun y _ hy => hQ.closeGroup _ _ _ y hy) _ _ h
    · exact h
  · exact hQ.restart s h
  · unfold State.reprimeEntry
    split
    · dsimp only
      split
      · exact hQ.reprime s ⟨a.toNat, _⟩ h
      · exact h
    · exact h
  · exact hQ.transfer s h
  · unfold State.injectFault
    split <;> exact h
  · exact h

theorem Books.Kept.giveResult (hQ : Books.Kept Q) (w : Word) (r : CommandOutcome) (s : State) (h : Q s.books) :
    Q ({ s with alerts := s.alerts.giveResult w r } : State).books :=
  hQ.reported (s := s) rfl rfl le_rfl (fun hw => hw.giveResult w r) h

theorem Books.Kept.dealWith (hQ : Books.Kept Q) (w a : Word) (s : State) (h : Q s.books) :
    Q (s.dealWith w a).books := by
  unfold State.dealWith
  split
  · exact h
  · split
    · exact h
    · exact hQ.giveResult _ _ s h
  · exact h
  · split
    · exact h
    · exact hQ.giveResult _ _ _ (hQ.command w a s h)

theorem Books.Kept.takeCommand (hQ : Books.Kept Q) (s : State) (h : Q s.books) : Q s.takeCommand.books := by
  unfold State.takeCommand
  split
  · exact h
  · exact hQ.dealWith _ _ _ h

theorem Books.Kept.startApply (hQ : Books.Kept Q) (s : State) (h : Q s.books) : Q s.startApply.books :=
  hQ.reported (s := s) rfl rfl le_rfl (fun hw => hw) h

theorem Books.Kept.afterApply (hQ : Books.Kept Q) (s : State) (h : Q s.books) : Q s.afterApply.books := by
  have resume (u : State) (hu : Q u.books) : Q (if u.setup.pendingApply then
      { u with setup := { u.setup with pendingApply := false } }.startApply else u).books := by
    split
    · exact hQ.startApply _ hu
    · exact hu
  unfold State.afterApply
  split
  · exact resume _ (hQ.dealWith _ _ _ h)
  · exact resume _ h

theorem Books.Kept.announceInstalled (hQ : Books.Kept Q) (new : Image) (s : State) (h : Q s.books) :
    Q (s.announceInstalled new).books :=
  hQ.reported (s := s) rfl rfl le_rfl (fun hw => hw.of_counters (Alerts.latch_counters _ _)) h

theorem Books.Kept.completeValidation (hQ : Books.Kept Q) (s : State) (h : Q s.books) :
    Q s.completeValidation.books := by
  unfold State.completeValidation
  split
  · exact hQ.afterApply _ (hQ.reported (s := s) rfl rfl le_rfl (fun hw => hw.of_counters (Alerts.latch_counters _ _)) h)
  · exact hQ.pause _ _ h

theorem Books.Kept.install (hQ : Books.Kept Q)
    (s : State) (h : Q s.books) : Q s.install.books :=
  hQ.afterApply _ (hQ.announceInstalled _ _ (hQ.units s _ _ _ h))

theorem Books.Kept.completeFetch (hQ : Books.Kept Q)
    (s : State) (h : Q s.books) : Q s.completeFetch.books := by
  have ended (u : State) (hu : Q u.books) : Q (if s.setup.shadow.generation = s.candidateImage.generation
      then u.endFetch else u.endFetch.startApply).books := by
    have hend : Q u.endFetch.books := hQ.reported (s := u) rfl rfl le_rfl (fun hw => hw) hu
    split
    · exact hend
    · exact hQ.startApply _ hend
  unfold State.completeFetch
  apply ended
  split
  · exact hQ.reported (s := s) rfl rfl le_rfl (fun hw => hw.of_counters (Alerts.latch_counters _ _)) h
  · exact hQ.announceInstalled _ _ (hQ.units s _ _ _ h)

/-! ### Every effect -/

theorem Books.Kept.leaves (hQ : Books.Kept Q) {s t : State} (hst : s.LeavesBooks t) (h : Q s.books) : Q t.books :=
  hQ.reported hst.channels hst.lines (congrArg (fun t : Tally => t.queue.length) hst.tally).le hst.within h

theorem Books.Kept.effect (hQ : Books.Kept Q) {s u : State} (e : Effect s u) (h : Q s.books) : Q u.books := by
  cases e with
  | reset r b _ => exact hQ.reset s r b
  | tick _ => exact hQ.tick s h
  | advance _ => exact hQ.advance s h
  | assemblyTimeout i => exact hQ.leaves (s.assemblyTimeout_leaves i) h
  | staleExpiry e => exact hQ.staleExpiry s e h
  | changeoverExpiry n => exact hQ.changeoverExpiry s n h
  | boundaryExpiry => exact hQ.closeDue s h
  | reportExpiry => exact hQ.reportExpiry s h
  | spill => exact hQ.leaves s.enterSpill_leaves h
  | backoffExpiry _ => exact hQ.reported (s := s) rfl rfl le_rfl id h
  | upstreamWrite a ws => exact hQ.leaves (s.presentWrite_leaves a ws) h
  | upstreamRead a es => exact hQ.leaves (s.presentRead_leaves a es) h
  | holdRelease => exact hQ.leaves s.releaseHold_leaves h
  | readRelease => exact hQ.leaves s.releaseRead_leaves h
  | arbitrate => exact hQ.arbitrate s h
  | capture => exact hQ.leaves s.capture_leaves h
  | clockWord => exact hQ.takeClockWord s h
  | generation => exact hQ.leaves s.takeGeneration_leaves h
  | consumer => exact hQ.leaves s.takeConsumer_leaves h
  | observation => exact hQ.leaves s.takeObservation_leaves h
  | command => exact hQ.takeCommand s h
  | passthrough answer => exact h
  | recordTake => exact hQ.recordTake s h
  | handOver _ => exact hQ.handOver s h
  | missHandOver _ =>
    unfold State.handOverMiss
    split
    · exact h
    · exact hQ.reported (s := s) rfl rfl le_rfl id h
  | takeIntoHand _ _ => exact hQ.leaves s.takeHead_leaves h
  | recordAnswer a _ => exact hQ.leaves (s.answerRecordWrite_leaves a) h
  | indexAnswer a _ => exact hQ.leaves (s.answerIndexWrite_leaves a) h
  | initialisingAnswer a => exact hQ.leaves (s.answerInitialisingWrite_leaves a) h
  | updateIntoHand _ => exact hQ.reported (s := s) rfl rfl le_rfl id h
  | reserveAnswer a => exact hQ.takeReserveRead a s h
  | conditionalAnswer a => exact hQ.takeConditionalWrite a s h
  | fetchAnswer a _ => exact hQ.leaves (s.answerFetch_leaves a) h
  | fetchEnd _ => exact hQ.completeFetch s h
  | mirrorAnswer a => exact hQ.leaves (s.answerMirror_leaves a) h
  | validated _ => exact hQ.completeValidation s h
  | quiesced _ => exact hQ.forceClose s h
  | installed _ _ => exact hQ.install s h
  | portFreed => exact h

end Sys2Proof.Machine
end

section
/-! SUPPORT. The hand-over list: it names each waiting snapshot once, after every step (R97, R98). -/

namespace Sys2Proof.Machine

/-! ### Which snapshots wait -/

/-- The hand-over list of a Line Unit names each waiting snapshot once, and nothing else. -/
def LineUnit.HandOverExact (u : LineUnit) : Prop :=
  u.handOver.Nodup ∧ ∀ k (n : Fin 16), (k, n) ∈ u.handOver ↔ (u.lines[n]).waits k = true

/-- What leaves the list and the waiting snapshots keeps it exact. -/
theorem LineUnit.HandOverExact.congr {u v : LineUnit} (h : u.HandOverExact) (hl : v.handOver = u.handOver)
    (hw : ∀ k (n : Fin 16), (v.lines[n]).waits k = (u.lines[n]).waits k) : v.HandOverExact := by
  unfold LineUnit.HandOverExact
  simp only [hl, hw]
  exact h

/-- A line replaced by one with the same waiting snapshots keeps the list exact. -/
theorem LineUnit.HandOverExact.set {u : LineUnit} (h : u.HandOverExact) (n : Fin 16) (l : Line)
    (hw : ∀ k, l.waits k = (u.lines[n]).waits k) : LineUnit.HandOverExact { u with lines := u.lines.set n l } := by
  refine h.congr rfl fun k j => ?_
  by_cases hj : j = n
  · subst hj
    rw [set_get_self]
    exact hw k
  · rw [set_get_other _ _ _ _ hj]

/-- Snapshots that did not wait before join at the tail, each named once. -/
theorem LineUnit.HandOverExact.join {u v : LineUnit} (h : u.HandOverExact) (new : List (SnapshotKind × Fin 16))
    (hl : v.handOver = u.handOver ++ new) (hnew : new.Nodup)
    (hfresh : ∀ k n, (k, n) ∈ new → (u.lines[n]).waits k = false)
    (hw : ∀ k (n : Fin 16), (v.lines[n]).waits k = true ↔ (u.lines[n]).waits k = true ∨ (k, n) ∈ new) :
    v.HandOverExact := by
  obtain ⟨hnodup, hmem⟩ := h
  refine ⟨?_, fun k n => ?_⟩
  · rw [hl]
    refine hnodup.append hnew fun ⟨k, n⟩ hold hin => ?_
    exact Bool.false_ne_true ((hfresh k n hin).symm.trans ((hmem k n).1 hold))
  · rw [hl, List.mem_append, hmem, hw]

/-! ### Line events and credits leave the snapshots -/

theorem Line.waits_enterChangeover (d : Nat) (l : Line) (k : SnapshotKind) :
    (l.enterChangeover d).waits k = l.waits k := by
  unfold Line.enterChangeover; split <;> rfl

theorem Line.waits_jobMark (code weight d : Nat) (l : Line) (k : SnapshotKind) :
    (l.jobMark code weight d).waits k = l.waits k := by
  unfold Line.jobMark
  dsimp only
  split
  · exact Line.waits_enterChangeover _ _ k
  · exact Line.waits_enterChangeover _ _ k
  · rfl
  · rfl

theorem Line.waits_stop (l : Line) (k : SnapshotKind) : l.stop.waits k = l.waits k := by
  unfold Line.stop; split <;> rfl

theorem Line.waits_start (d : Nat) (l : Line) (k : SnapshotKind) : (l.start d).waits k = l.waits k := by
  unfold Line.start
  split
  · split
    · exact Line.waits_enterChangeover _ _ k
    · rfl
  · rfl
  · rfl
  · rfl

theorem Line.waits_second (l : Line) (k : SnapshotKind) : l.second.1.waits k = l.waits k := by
  unfold Line.second; split <;> rfl

theorem Line.waits_credit (kind : LineKind) (c : Credit) (l : Line) (k : SnapshotKind) :
    (l.credit kind c).1.waits k = l.waits k := by
  unfold Line.credit
  split
  · rfl
  · dsimp only; split <;> rfl

theorem Line.waits_installed (old new : LineKind) (now : Nat) (l : Line) (k : SnapshotKind) :
    (l.installed old new now).waits k = l.waits k := by
  unfold Line.installed
  split
  · rfl
  · split <;> rfl

/-- A handled record credits its line and leaves what waits. -/
theorem State.handleRecord_exact (r : TapRecord) (e : Fin 256) {s : State} (h : s.lines.HandOverExact) :
    (s.handleRecord r e).lines.HandOverExact := by
  obtain ⟨M, L, al, hr, hnone, hsome⟩ := State.handleRecord_eq r e s
  rw [hr]
  have hreprime (b : Bool) (l : Line) (k : SnapshotKind) :
      (if b then l.reprimeNotice.1 else l).waits k = l.waits k := by
    cases b <;> rfl
  refine h.set _ _ fun k => ?_
  rcases hcounts : ((s.channels.meters[e]).handle (s.cfg.channel e) s.cfg.reprimeThreshold r).counts with _ | ⟨d, c⟩
  · rw [(hnone hcounts).2]
    exact hreprime _ _ k
  · rw [(hsome d c hcounts).2]
    split
    · exact hreprime _ _ k
    · exact (Line.waits_credit _ _ _ k).trans (hreprime _ _ k)

/-! ### Closes (R90, R97, R101) -/

/-- After a job close the job snapshot waits. -/
theorem Books.closeJob_exact (n : Fin 16) (code : Nat) {x : Books} (h : x.lines.HandOverExact) :
    (x.closeJob n code).lines.HandOverExact := by
  have waits (k : SnapshotKind) (snap : JobSnapshot) (j : Job) :
      ({ x.line n with job := j, jobSnap := some snap } : Line).waits k = true ↔
        (x.line n).waits k = true ∨ k = .job := by
    cases k <;> simp [Line.waits]
  refine h.join (if (x.line n).jobSnap.isSome then [] else [(.job, n)]) ?list ?nodup ?fresh ?waits
  case list =>
    show (if (x.line n).jobSnap.isSome then x.lines.handOver else x.lines.handOver ++ [(.job, n)]) = _
    split <;> simp
  case nodup => split <;> simp
  case fresh =>
    intro k j hin
    split at hin
    · cases hin
    · next hnone =>
      obtain ⟨rfl, rfl⟩ := Prod.mk.inj (List.mem_singleton.1 hin)
      simpa [Line.waits, Books.line] using hnone
  case waits =>
    intro k j
    have hlines : (x.closeJob n code).lines.lines = x.lines.lines.set n _ := rfl
    by_cases hj : j = n
    · subst hj
      rw [hlines, set_get_self, waits]
      show (x.line j).waits k = true ∨ _ ↔ (x.line j).waits k = true ∨ _
      split
      · next hsome =>
        simp only [List.not_mem_nil, or_false, or_iff_left_iff_imp]
        rintro rfl
        exact hsome
      · simp
    · rw [hlines, set_get_other _ _ _ _ hj]
      split <;> simp [hj]

/-- A closing bin waits, an epoch that closes waits, and a job snapshot waits as before. -/
theorem Line.waits_close (kind : LineKind) (now stale share : Nat) (we : Bool) (l : Line) (k : SnapshotKind) :
    (l.close kind now stale share we).1.waits k = true ↔
      l.waits k = true ∨ k = .bin ∨ (k = .epoch ∧ we = true) := by
  have placed : (l.placeBin (l.closedBin kind now stale share)).1.closing.isSome = true ∧
      (l.placeBin (l.closedBin kind now stale share)).1.epochSnap = l.epochSnap ∧
      (l.placeBin (l.closedBin kind now stale share)).1.jobSnap = l.jobSnap := by
    unfold Line.placeBin; split <;> exact ⟨rfl, rfl, rfl⟩
  have closed (x : Line) : (x.closeEpoch kind now).1.closing = x.closing ∧
      (x.closeEpoch kind now).1.epochSnap.isSome = true ∧ (x.closeEpoch kind now).1.jobSnap = x.jobSnap := by
    unfold Line.closeEpoch; dsimp only; split <;> exact ⟨rfl, rfl, rfl⟩
  obtain ⟨hbin, hepoch, hjob⟩ := placed
  unfold Line.close
  cases we <;> cases k <;> simp [Line.waits, Line.reopenBin, closed, hbin, hepoch, hjob]

/-- The members of a group are listed in increasing line number, each once. -/
theorem Image.members_nodup (m : Image) (h : Fin 16) : (m.members h).Nodup := by
  unfold Image.members
  split
  · exact (List.nodup_finRange 16).filter _
  · exact List.nodup_nil

/-- What joins the list at a close: the bin snapshot of each member that had none, and the epoch's where it closes. -/
theorem Books.mem_joining {x : Books} {ms : List (Fin 16)} {we : Bool} {k : SnapshotKind} {n : Fin 16} :
    (k, n) ∈ x.joining ms we ↔
      n ∈ ms ∧ (k = .bin ∨ k = .epoch ∧ we = true) ∧ (x.line n).waits k = false := by
  unfold Books.joining
  simp only [List.mem_flatMap, List.mem_append]
  constructor
  · rintro ⟨j, hj, hin | hin⟩
    · split at hin
      · next hnone =>
        obtain ⟨rfl, rfl⟩ := Prod.mk.inj (List.mem_singleton.1 hin)
        exact ⟨hj, .inl rfl, by simpa [Line.waits] using hnone⟩
      · cases hin
    · split at hin
      · next hnone =>
        obtain ⟨rfl, rfl⟩ := Prod.mk.inj (List.mem_singleton.1 hin)
        obtain ⟨hwe, hepoch⟩ := Bool.and_eq_true_iff.1 hnone
        exact ⟨hj, .inr ⟨rfl, hwe⟩, by simpa [Line.waits] using hepoch⟩
      · cases hin
  · rintro ⟨hn, rfl | ⟨rfl, rfl⟩, hwaits⟩
    · have hnone : (x.line n).closing.isNone = true := by simpa [Line.waits] using hwaits
      exact ⟨n, hn, .inl (by simp [hnone])⟩
    · have hnone : (x.line n).epochSnap.isNone = true := by simpa [Line.waits] using hwaits
      exact ⟨n, hn, .inr (by simp [hnone])⟩

theorem Books.joining_nodup (x : Books) {ms : List (Fin 16)} (we : Bool) (h : ms.Nodup) : (x.joining ms we).Nodup := by
  unfold Books.joining
  rw [List.nodup_flatMap]
  refine ⟨fun n _ => ?_, h.imp fun {a b} hab => ?_⟩
  · split <;> split <;> simp
  · rintro ⟨k, n⟩ ha hb
    have line (c : Fin 16) (hc : (k, n) ∈ (if (x.line c).closing.isNone then [(SnapshotKind.bin, c)] else []) ++
        (if we && (x.line c).epochSnap.isNone then [(SnapshotKind.epoch, c)] else [])) : n = c := by
      rcases List.mem_append.1 hc with hc | hc
      · split at hc <;> simp at hc; exact hc.2
      · split at hc <;> simp at hc; exact hc.2
    exact hab ((line a ha).symm.trans (line b hb))

/-- After a group close every member's bin waits, and its epoch where that closes. -/
theorem Books.closeGroup_exact (m : Image) (head : Fin 16) (we : Bool) {x : Books} (h : x.lines.HandOverExact) :
    (x.closeGroup m head we).lines.HandOverExact := by
  refine h.join (x.joining (m.members head) we) rfl (x.joining_nodup we (m.members_nodup head)) ?fresh ?waits
  case fresh => exact fun k n hin => (Books.mem_joining.1 hin).2.2
  case waits =>
    intro k n
    have hline : (x.closeGroup m head we).lines.lines[n] =
        if (m.members head).contains n then (x.closedLine m head we n).1 else x.line n := tabulate_get _ _ n
    rw [hline, Books.mem_joining]
    show _ ↔ (x.line n).waits k = true ∨ _
    split
    · next hin =>
      have hmem : n ∈ m.members head := by simpa using hin
      rw [Books.closedLine, Line.waits_close]
      cases (x.line n).waits k <;> simp [hmem]
    · next hout =>
      have hmem : n ∉ m.members head := by simpa using hout
      simp [hmem]

theorem Books.deliver_exact (m : Image) (n : Fin 16) (e : LineEvent) {x : Books} (h : x.lines.HandOverExact) :
    (x.deliver m n e).lines.HandOverExact := by
  unfold Books.deliver
  split
  · exact h
  · cases e with
    | jobMark code weight => exact (Books.closeJob_exact n code h).set n _ (Line.waits_jobMark _ _ _ _)
    | lineStop => exact h.set n _ (Line.waits_stop _)
    | lineStart => exact h.set n _ (Line.waits_start _ _)

/-! ### Hand-overs (R98) -/

/-- A taken snapshot waits no more; the line's others do as before. -/
theorem Line.waits_takeSnapshot (kind k : SnapshotKind) (n : Fin 16) (l : Line) :
    (l.takeSnapshot kind n).2.waits k = true ↔ k ≠ kind ∧ l.waits k = true := by
  cases kind <;> cases k <;> simp [Line.takeSnapshot, Line.waits]

/-- The head of the list leaves it with its snapshot. -/
theorem State.handOverHead_exact {s : State} (h : s.lines.HandOverExact) : s.handOverHead.lines.HandOverExact := by
  obtain ⟨hnodup, hmem⟩ := h
  unfold State.handOverHead
  split
  · exact ⟨hnodup, hmem⟩
  · next kind n rest hlist =>
    rw [hlist, List.nodup_cons] at hnodup
    obtain ⟨hnotin, hrest⟩ := hnodup
    have taken : LineUnit.HandOverExact { s.lines with
        lines := s.lines.lines.set n ((s.lines.lines[n]).takeSnapshot kind n).2, handOver := rest } := by
      refine ⟨hrest, fun k j => ?_⟩
      have hbefore := hmem k j
      rw [hlist, List.mem_cons, Prod.mk.injEq] at hbefore
      by_cases hj : j = n
      · subst hj
        rw [set_get_self, Line.waits_takeSnapshot, ← hbefore]
        by_cases hk : k = kind
        · subst hk
          simp [hnotin]
        · simp [hk]
      · rw [set_get_other _ _ _ _ hj, ← hbefore]
        simp [hj]
    dsimp only
    split
    · exact taken
    · exact taken

/-! ### Every step -/

theorem State.installUnits_exact (old new : Image) (had : Bool) (s : State) (h : s.lines.HandOverExact) :
    (s.installUnits old new had).lines.HandOverExact := by
  obtain ⟨hr, sp, rd, al, hu, -⟩ := State.installUnits_eq old new had s
  rw [hu]
  exact h.congr rfl fun k n => by
    have hline : (s.lines.installed old new).lines[n] = (s.lines.lines[n]).installed _ _ _ := tabulate_get _ _ n
    rw [hline, Line.waits_installed]

theorem State.takeRecord_exact {s : State} (h : s.lines.HandOverExact) : s.takeRecord.lines.HandOverExact := by
  unfold State.takeRecord
  split
  · exact h
  · dsimp only
    split
    · simpa using h
    · exact State.handleRecord_exact _ _ (by simpa using h)

theorem State.advance_exact {s : State} (h : s.lines.HandOverExact) : s.advance.lines.HandOverExact := by
  have hline (n : Fin 16) : s.advance.lines.lines[n] = (s.lines.lines[n]).second.1 := by
    unfold State.advance
    dsimp only
    split <;> exact tabulate_get _ _ n
  have hlist : s.advance.lines.handOver = s.lines.handOver := by
    unfold State.advance
    dsimp only
    split <;> rfl
  exact h.congr hlist fun k n => by rw [hline, Line.waits_second]

/-- The hand-over list is kept exact by every operation on the books. -/
theorem LineUnit.handOverExact_kept : Books.Kept (fun x => x.lines.HandOverExact) where
  closeGroup _ _ _ _ h := Books.closeGroup_exact _ _ _ h
  closeJob _ _ _ h := Books.closeJob_exact _ _ h
  deliver _ _ _ _ h := Books.deliver_exact _ _ _ h
  handOver _ h := State.handOverHead_exact h
  timing _ _ _ h := h
  ledger _ _ _ _ h := h
  restart s _ := ⟨List.nodup_nil, fun k n => by
    have hline : s.restartUnits.1.lines.lines[n] = Line.restarted _ _ := tabulate_get _ _ n
    rw [State.books_lines, hline]
    cases k <;> exact iff_of_false List.not_mem_nil Bool.false_ne_true⟩
  reprime _ _ h := h
  transfer _ h := h
  reset _ _ _ := by
    obtain ⟨-, -, -, -, -, -, -, hhand⟩ := invariantsHoldAtReset
    exact hhand
  tick _ h := h
  advance _ h := State.advance_exact h
  staleExpiry _ _ h := h
  changeoverExpiry _ n h := h.set n _ fun k => by cases k <;> rfl
  reportExpiry _ h := h
  recordTake _ h := State.takeRecord_exact h
  pause _ _ h := h
  units s old new had h := State.installUnits_exact old new had s h

/-- Settles O59, by what each effect does to the lines' snapshots. -/
theorem handOverListNamesEachWaitingSnapshotOnce : Obligations.HandOverListNamesEachWaitingSnapshotOnce := by
  refine kept_by_every_step (fun _ _ h => h) (fun s h => ?fine) (fun _ h => h)
    fun _ _ h e => LineUnit.handOverExact_kept.effect e h
  case fine => unfold State.fineInterval; split <;> exact h

end Sys2Proof.Machine
end

section
/-! SUPPORT. The bounds that the books keep over every step: the depth of the tally queue, the pulse count, the
widths of the defect counters, the gap counts and the residues (R82, R126, R177, section 4.1). -/

namespace Sys2Proof.Machine

/-! ### The depth of the tally queue (R126) -/

theorem Ledger.postAll_length (us : List Update) : ∀ x : Ledger, x.tally.queue.length ≤ 32 →
    (x.postAll us).tally.queue.length ≤ 32 := by
  induction us with
  | nil => exact fun x h => h
  | cons u rest ih => exact fun x h => ih _ (x.post_length u h)

theorem Books.closeJob_tallyQueue (n : Fin 16) (code : Nat) (x : Books) (h : x.ledger.tally.queue.length ≤ 32) :
    (x.closeJob n code).ledger.tally.queue.length ≤ 32 := by
  show (if (x.line n).job.code = 0 then x.ledger else _).tally.queue.length ≤ 32
  split
  · exact h
  · exact Ledger.post_length _ _ h

theorem Books.tallyQueue_kept : Books.Kept (fun x => x.ledger.tally.queue.length ≤ 32) where
  closeGroup _ _ _ _ h := Ledger.postAll_length _ _ h
  closeJob n code x h := Books.closeJob_tallyQueue n code x h
  deliver m n e x h := by
    unfold Books.deliver
    split
    · exact h
    · cases e with
      | jobMark code weight => exact Books.closeJob_tallyQueue n code x h
      | lineStop => exact h
      | lineStart => exact h
  handOver s h := by simpa using h
  timing _ _ _ h := h
  ledger _ _ hq _ h := hq.trans h
  restart s h := by
    have htally : s.restartUnits.1.tally = s.tally := by simp [State.restartUnits]
    simpa [htally] using h
  reprime _ _ h := h
  transfer _ h := h
  reset _ _ _ := Nat.zero_le _
  tick _ h := h
  advance _ h := h
  staleExpiry _ _ h := h
  changeoverExpiry _ _ h := h
  reportExpiry _ h := h
  recordTake s h := by simpa [State.takeRecord_tally] using h
  pause _ _ h := h
  units s old new had h := by simpa [State.installUnits_tally] using h

/-! ### Gap counts and residues (section 4.1) -/

/-- The gap count keeps to 8 bits and the residue to 16. -/
def Meter.Within (m : Meter) : Prop := m.gap ≤ 255 ∧ m.residue < 65536

theorem Meter.Within.adopt {m : Meter} (h : m.Within) (t v : Nat) : (m.adopt t v).Within := ⟨Nat.zero_le _, h.2⟩

theorem Meter.Within.doubt {m : Meter} (h : m.Within) (t v n : Nat) : (m.doubt t v n).Within :=
  ⟨Nat.zero_le _, h.2⟩

theorem Meter.Within.unseen {m : Meter} (h : m.Within) : m.unseen.Within := ⟨Nat.zero_le _, h.2⟩

theorem Meter.Within.fresh (m : Meter) : m.fresh.Within := ⟨Nat.zero_le _, (by decide : 0 < 65536)⟩

theorem Meter.Within.expire {m : Meter} (h : m.Within) (t : Nat) : (m.expire t).Within := by
  unfold Meter.expire
  split
  · exact ⟨(by decide : 1 ≤ 255), h.2⟩
  · exact ⟨(by decide : 1 ≤ 255), h.2⟩
  · exact ⟨Nat.min_le_right _ _, h.2⟩
  · exact h
  · exact h

theorem Meter.Within.installed {m : Meter} (h : m.Within) (old new : ChannelSetup) : (m.installed old new).Within := by
  unfold Meter.installed
  split
  · exact h
  · exact .fresh m
  · exact ⟨Nat.zero_le _, h.2⟩
  · split
    · exact h
    · exact .fresh m

theorem Meter.Within.machine {m : Meter} (h : m.Within) (c : ChannelSetup) (t : Nat) (kind : RecordKind)
    (s : BitVec 8) (v : Nat) : (m.machine c t kind s v).meter.Within := by
  unfold Meter.machine
  split
  · exact h
  · exact ⟨Nat.zero_le _, (by decide : 0 < 65536)⟩
  · exact ⟨Nat.zero_le _, h.2⟩
  · unfold Meter.readLive
    dsimp only
    split
    · exact h.adopt _ _
    · split
      · exact h
      · exact h.doubt _ _ _
  · unfold Meter.readSuspect
    dsimp only
    split
    · exact h.adopt _ _
    · split
      · split
        · exact h.adopt _ _
        · exact h.doubt _ _ _
      · exact h.doubt _ _ _
  · unfold Meter.readStale
    dsimp only
    split
    · exact h.adopt _ _
    · exact h.doubt _ _ _

theorem Meter.Within.judged {m : Meter} (h : m.Within) (c : ChannelSetup) (t : Nat) (r : TapRecord) :
    (m.judged c t r).meter.Within := by
  unfold Meter.judged
  split
  · exact h
  · exact h.machine _ _ _ _ _

theorem Meter.Within.handle {m : Meter} (h : m.Within) (c : ChannelSetup) (t : Nat) (r : TapRecord) :
    (m.handle c t r).meter.Within := by
  unfold Meter.handle
  split
  · exact h
  · split
    · exact h.judged _ _ _
    · next last _ =>
      have hseen := Meter.Within.judged (m := { m with lastSequence := some r.sequence }) h c t r
      dsimp only
      split
      · exact h
      · split <;> exact hseen

/-- A conversion leaves the remainder of a division by 65536, or the residue as it was (R71, R72). -/
theorem ChannelSetup.convert_residue (c : ChannelSetup) (w d : Nat) {residue : Nat} (h : residue < 65536) :
    (c.convert w residue d).2.2 < 65536 := by
  unfold ChannelSetup.convert
  split
  · exact Nat.mod_lt _ (by decide)
  · exact Nat.mod_lt _ (by decide)
  · split <;> exact h
  · exact h

/-- Every channel entry keeps its widths. -/
def Channels.Within (c : Channels) : Prop := ∀ e : Fin 256, (c.meters[e]).Within

theorem Channels.Within.set {c : Channels} (h : c.Within) (e : Fin 256) {m : Meter} (hm : m.Within) :
    Channels.Within { c with meters := c.meters.set e m } := by
  intro k
  by_cases hk : k = e
  · subst hk
    rw [set_get_self]
    exact hm
  · rw [set_get_other _ _ _ _ hk]
    exact h k

theorem Channels.Within.tabulate {c : Channels} {f : Fin 256 → Meter} (hf : ∀ e, (f e).Within) :
    Channels.Within { c with meters := tabulate 256 f } := fun e => by
  rw [tabulate_get]
  exact hf e

theorem Channels.Within.renewStale {c : Channels} (h : c.Within) (m : Image) (ms : List (Fin 16)) :
    (c.renewStale m ms).Within := .tabulate fun e => by split <;> exact h e

theorem State.handleRecord_within (r : TapRecord) (e : Fin 256) {s : State} (h : s.channels.Within) :
    (s.handleRecord r e).channels.Within := by
  obtain ⟨M, L, al, hr, hnone, hsome⟩ := State.handleRecord_eq r e s
  rw [hr]
  have hmeter := (h e).handle (s.cfg.channel e) s.cfg.reprimeThreshold r
  refine h.set e ?_
  rcases hcounts : ((s.channels.meters[e]).handle (s.cfg.channel e) s.cfg.reprimeThreshold r).counts with _ | ⟨d, c⟩
  · rw [(hnone hcounts).1]
    exact hmeter
  · rw [(hsome d c hcounts).1]
    exact ⟨hmeter.1, ChannelSetup.convert_residue _ _ _ hmeter.2⟩

/-! ### Reports of the Line Unit and the Channel Unit keep the counters (R177) -/

theorem Ledger.post_within (u : Update) {x : Ledger} (h : x.alerts.Within) : (x.post u).alerts.Within := by
  unfold Ledger.post
  split
  · exact h
  · exact Alerts.Within.of_counters h (Alerts.latch_counters _ _)

theorem Ledger.postAll_within (us : List Update) : ∀ x : Ledger, x.alerts.Within → (x.postAll us).alerts.Within := by
  induction us with
  | nil => exact fun x h => h
  | cons u rest ih => exact fun x h => ih _ (Ledger.post_within u h)

theorem Books.saturate_within (b : Bool) {x : Books} (h : x.ledger.alerts.Within) :
    (x.saturate b).ledger.alerts.Within := h.of_counters (Alerts.latchIf_counters _ _ _)

theorem Books.closeJob_within (n : Fin 16) (code : Nat) {x : Books} (h : x.ledger.alerts.Within) :
    (x.closeJob n code).ledger.alerts.Within := by
  unfold Books.closeJob
  refine Books.saturate_within _ ?_
  dsimp only
  split
  · exact h
  · exact Ledger.post_within _ h

theorem Alerts.Within.reportAll (m : Image) (cs : List DefectClass) : ∀ {a : Alerts}, a.Within →
    (a.reportAll m cs).Within := by
  induction cs with
  | nil => exact fun h => h
  | cons c rest ih => exact fun h => ih (h.report m c)

theorem State.withMeters_within (ms : Vector Meter 256) {s : State} (h : s.alerts.Within) :
    (s.withMeters ms).alerts.Within := h.of_counters (Alerts.grew_follow _ _ _ _ _).counters

theorem State.handleRecord_alerts_within (r : TapRecord) (e : Fin 256) {s : State} (h : s.alerts.Within) :
    (s.handleRecord r e).alerts.Within := by
  have reprimed (u : State) (hu : u.alerts.Within) (b : Bool) (n : Fin 16) :
      (if b then u.withBooks (u.books.reprimeNotice n) else u).alerts.Within := by
    split
    · exact Books.saturate_within _ hu
    · exact hu
  unfold State.handleRecord
  dsimp only
  split
  · split
    · refine reprimed _ ?_ _ _
      exact ((State.withMeters_within _ h).reportAll _ _).of_counters (Alerts.latchIf_counters _ _ _)
    · refine Books.saturate_within _ (reprimed _ ?_ _ _)
      exact ((State.withMeters_within _ h).reportAll _ _).of_counters (Alerts.latchIf_counters _ _ _)
  · refine reprimed _ ?_ _ _
    exact ((State.withMeters_within _ h).reportAll _ _).of_counters (Alerts.latchIf_counters _ _ _)

theorem State.afterRemoval_within {s : State} (h : s.alerts.Within) : s.afterRemoval.alerts.Within := by
  unfold State.afterRemoval
  split
  · obtain ⟨sp, rd, al, hu, hgrew⟩ := State.dropRequest_eq s
    rw [hu]
    exact h.of_counters hgrew.counters
  · exact h

/-! ### The widths of the books -/

/-- The pulse count, the defect counters, the gap counts and the residues keep their widths. -/
def Books.Within (x : Books) : Prop := x.lines.pulses ≤ 999 ∧ x.ledger.alerts.Within ∧ x.channels.Within

theorem State.installUnits_within (old new : Image) (had : Bool) {s : State} (h : s.books.Within) :
    (s.installUnits old new had).books.Within := by
  obtain ⟨hpulses, halerts, hmeters⟩ := h
  refine ⟨?_, ?_, .tabulate (c := { s.channels with pause := false }) fun e => (hmeters e).installed _ _⟩
  · obtain ⟨hr, sp, rd, al, hu, -⟩ := State.installUnits_eq old new had s
    rw [hu]
    exact hpulses
  · have hcounters : (s.alerts.installed old new had).Within := by
      intro i
      have hi : (s.alerts.installed old new had).counters[i] = if had && sameSelect old new i
          then s.alerts.counters[i] else { s.alerts.counters[i] with count := 0 } := by
        simp [Alerts.installed]
      rw [hi]
      split
      · exact halerts i
      · exact ⟨Nat.zero_le _, (halerts i).2⟩
    unfold State.installUnits
    refine State.withMeters_within _ ?_
    obtain ⟨hr, sp, rd, al, htest, hgrew⟩ := State.testMarks_eq (State.retestHold _)
    rw [htest]
    refine Alerts.Within.of_counters ?_ hgrew.counters
    rw [State.retestHold_alerts]
    exact hcounters

theorem Books.within_kept : Books.Kept Books.Within where
  closeGroup m h we x hx := by
    obtain ⟨hpulses, halerts, hmeters⟩ := hx
    exact ⟨hpulses, Books.saturate_within _ (Ledger.postAll_within _ _ halerts), hmeters.renewStale _ _⟩
  closeJob n code x hx := ⟨hx.1, Books.closeJob_within n code hx.2.1, hx.2.2⟩
  deliver m n e x hx := by
    obtain ⟨hpulses, halerts, hmeters⟩ := hx
    unfold Books.deliver
    split
    · exact ⟨hpulses, halerts.of_counters (Alerts.latch_counters _ _), hmeters⟩
    · cases e with
      | jobMark code weight => exact ⟨hpulses, Books.closeJob_within n code halerts, hmeters⟩
      | lineStop => exact ⟨hpulses, halerts, hmeters⟩
      | lineStart => exact ⟨hpulses, halerts, hmeters⟩
  handOver s h := by
    unfold State.handOverHead
    split
    · exact h
    · obtain ⟨hpulses, halerts, hmeters⟩ := h
      dsimp only
      split
      · exact ⟨hpulses, halerts, hmeters⟩
      · exact ⟨hpulses, halerts.of_counters (Alerts.latchIf_counters _ _ _), hmeters⟩
  timing _ _ _ h := h
  ledger _ _ _ ha h := ⟨h.1, ha h.2.1, h.2.2⟩
  restart s h := by
    obtain ⟨hpulses, halerts, hmeters⟩ := h
    have hcounters : s.restartUnits.1.alerts.Within := fun i => by
      simp [State.restartUnits, Alerts.restarted]
    have hlines : s.restartUnits.1.lines.pulses = s.lines.pulses := by simp [State.restartUnits]
    refine ⟨hlines.trans_le hpulses, hcounters, ?_⟩
    have hchannels : s.restartUnits.1.channels = { s.channels with
        meters := s.channels.restarted s.cfg } := by
      simp [State.restartUnits, State.withMeters, State.cfg]
    rw [State.books_channels, hchannels]
    exact .tabulate fun e => by split <;> [exact .fresh _; exact hmeters e]
  reprime s e h := ⟨h.1, State.withMeters_within _ h.2.1, h.2.2.set e (h.2.2 e).unseen⟩
  transfer s h := ⟨h.1, h.2.1.transfer _, h.2.2⟩
  reset _ _ _ := by
    obtain ⟨-, -, ⟨hpulses, -, hcounters, -, hmeters⟩, -⟩ := invariantsHoldAtReset
    exact ⟨hpulses, hcounters, hmeters⟩
  tick s h := by
    refine ⟨?_, h.2⟩
    show (if decide (999 ≤ s.lines.pulses) then 0 else s.lines.pulses + 1) ≤ 999
    split
    · exact Nat.zero_le _
    · next hlow => simpa using hlow
  advance s h := by
    obtain ⟨hpulses, halerts, hmeters⟩ := h
    refine ⟨?_, halerts.of_counters (Alerts.latchIf_counters _ _ _), .tabulate hmeters⟩
    unfold State.advance
    dsimp only
    split <;> exact hpulses
  staleExpiry s e h := ⟨h.1, (State.withMeters_within _ h.2.1).of_counters (Alerts.latchIf_counters _ _ _),
    h.2.2.set e ((h.2.2 e).expire _)⟩
  changeoverExpiry _ _ h := h
  reportExpiry s h := ⟨h.1, h.2.1.transfer s.cfg.automatic, h.2.2⟩
  recordTake s h := by
    obtain ⟨hpulses, halerts, hmeters⟩ := h
    unfold State.takeRecord
    split
    · exact ⟨hpulses, halerts, hmeters⟩
    · next r rest _ =>
      have hremoved := State.afterRemoval_within (s := { s with intake := { s.intake with queue := rest } }) halerts
      obtain ⟨sp, rd, al, hu⟩ := State.afterRemoval_eq { s with intake := { s.intake with queue := rest } }
      dsimp only
      rw [hu] at hremoved
      rw [hu]
      split
      · exact ⟨hpulses, hremoved.report _ _, hmeters⟩
      · refine ⟨?_, State.handleRecord_alerts_within _ _ hremoved, State.handleRecord_within _ _ hmeters⟩
        obtain ⟨M, L, al', hr, -⟩ := State.handleRecord_eq r _ _
        rw [hr]
        exact hpulses
  pause _ _ h := h
  units s old new had h := State.installUnits_within old new had h

end Sys2Proof.Machine
end

section
/-! SUPPORT. What the steps leave of the memory path: the Result Writer, the setup in force, the port and its run
count, and the intake queue. -/

namespace Sys2Proof.Machine

/-- The step leaves the Result Writer, the setup in force and the run count, frees the port or leaves it, and puts
nothing into the intake queue. -/
structure State.LeavesPath (s u : State) : Prop where
  writer : u.writer = s.writer
  active : u.setup.active = s.setup.active
  port : u.pass.port = s.pass.port ∨ u.pass.port = .free
  runCount : u.pass.runCount = s.pass.runCount
  queue : u.intake.queue.length ≤ s.intake.queue.length

theorem State.LeavesPath.refl (s : State) : s.LeavesPath s := ⟨rfl, rfl, .inl rfl, rfl, le_rfl⟩

theorem State.LeavesPath.trans {s t u : State} (h : s.LeavesPath t) (g : t.LeavesPath u) : s.LeavesPath u where
  writer := g.writer.trans h.writer
  active := g.active.trans h.active
  port := by
    rcases g.port with hsame | hfree
    · rw [hsame]
      exact h.port
    · exact .inr hfree
  runCount := g.runCount.trans h.runCount
  queue := g.queue.trans h.queue

/-! ### The upstream side -/

theorem State.acceptWrite_path (a : Nat) (ws : List WriteWord) (s : State) : s.LeavesPath (s.acceptWrite a ws) := by
  unfold State.acceptWrite
  split
  · split <;> exact ⟨rfl, rfl, .inl rfl, rfl, le_rfl⟩
  · exact ⟨rfl, rfl, .inl rfl, rfl, le_rfl⟩

theorem State.presentWrite_path (a : Nat) (ws : List WriteWord) (s : State) :
    s.LeavesPath (s.presentWrite a ws) := by
  unfold State.presentWrite
  split
  · exact ⟨rfl, rfl, .inl rfl, rfl, le_rfl⟩
  · split
    · exact ⟨rfl, rfl, .inl rfl, rfl, le_rfl⟩
    · exact s.acceptWrite_path a ws

theorem State.presentRead_path (a : Nat) (es : List (BitVec 4)) (s : State) : s.LeavesPath (s.presentRead a es) := by
  unfold State.presentRead
  split
  · exact ⟨rfl, rfl, .inl rfl, rfl, le_rfl⟩
  · split <;> exact ⟨rfl, rfl, .inl rfl, rfl, le_rfl⟩

theorem State.releaseHold_path (s : State) : s.LeavesPath s.releaseHold := by
  unfold State.releaseHold
  split
  · exact .refl s
  · exact .trans (t := s.leaveHold) ⟨rfl, rfl, .inl rfl, rfl, le_rfl⟩ (State.acceptWrite_path _ _ _)

theorem State.releaseRead_path (s : State) : s.LeavesPath s.releaseRead := by
  unfold State.releaseRead
  split <;> exact ⟨rfl, rfl, .inl rfl, rfl, le_rfl⟩

theorem Desk.report_queue (m : Image) (c : DefectClass) (x : Desk) : (x.report m c).intake.queue = x.intake.queue := rfl

theorem Desk.abandonAll_queue (m : Image) (x : Desk) : (x.abandonAll m).intake.queue = x.intake.queue := by
  unfold Desk.abandonAll
  generalize List.finRange 4 = l
  induction l generalizing x with
  | nil => rfl
  | cons i rest ih =>
    refine (ih _).trans ?_
    dsimp only
    split <;> rfl

theorem State.enterSpill_path (s : State) : s.LeavesPath s.enterSpill := by
  unfold State.enterSpill
  split
  · exact .refl s
  · refine .trans ?_ (State.acceptWrite_path _ _ _)
    refine ⟨rfl, rfl, .inl rfl, rfl, ?_⟩
    exact (congrArg List.length (Desk.abandonAll_queue _ _)).le

theorem State.dropRequest_path (s : State) : s.LeavesPath s.dropRequest := by
  obtain ⟨sp, rd, al, h, -⟩ := State.dropRequest_eq s
  rw [h]
  exact ⟨rfl, rfl, .inl rfl, rfl, le_rfl⟩

/-! ### Commands and the end of an apply -/

theorem State.command_path (w a : Word) (s : State) : s.LeavesPath (s.command w a).1 := by
  unfold State.command
  split
  · unfold State.closeNamed
    split <;> exact ⟨rfl, rfl, .inl rfl, rfl, le_rfl⟩
  · have hdrop := State.dropRequest_path { s with intake := s.intake.restarted }
    exact ⟨hdrop.writer, hdrop.active, hdrop.port, hdrop.runCount, hdrop.queue.trans (Nat.zero_le _)⟩
  · unfold State.reprimeEntry
    split
    · dsimp only
      split <;> exact ⟨rfl, rfl, .inl rfl, rfl, le_rfl⟩
    · exact .refl s
  · exact ⟨rfl, rfl, .inl rfl, rfl, le_rfl⟩
  · unfold State.injectFault
    split
    · exact ⟨rfl, rfl, .inl rfl, rfl, le_rfl⟩
    · exact .refl s
  · exact .refl s

theorem State.dealWith_path (w a : Word) (s : State) : s.LeavesPath (s.dealWith w a) := by
  unfold State.dealWith
  split
  · exact .refl s
  · split <;> exact ⟨rfl, rfl, .inl rfl, rfl, le_rfl⟩
  · exact ⟨rfl, rfl, .inl rfl, rfl, le_rfl⟩
  · split
    · exact .refl s
    · exact (s.command_path w a).trans ⟨rfl, rfl, .inl rfl, rfl, le_rfl⟩

theorem State.takeCommand_path (s : State) : s.LeavesPath s.takeCommand := by
  unfold State.takeCommand
  split
  · exact .refl s
  · refine .trans ?_ (State.dealWith_path _ _ _)
    exact ⟨rfl, rfl, .inl rfl, rfl, le_rfl⟩

theorem State.takeGeneration_path (s : State) : s.LeavesPath s.takeGeneration := by
  unfold State.takeGeneration State.testGeneration
  split
  · exact .refl s
  · split
    · exact ⟨rfl, rfl, .inl rfl, rfl, le_rfl⟩
    · exact ⟨rfl, rfl, .inl rfl, rfl, le_rfl⟩
    · split <;> exact ⟨rfl, rfl, .inl rfl, rfl, le_rfl⟩
    · exact ⟨rfl, rfl, .inl rfl, rfl, le_rfl⟩

theorem State.capture_path (s : State) : s.LeavesPath s.capture := by
  unfold State.capture
  split <;> exact ⟨rfl, rfl, .inl rfl, rfl, le_rfl⟩

theorem State.takeClockWord_path (s : State) : s.LeavesPath s.takeClockWord := by
  unfold State.takeClockWord
  split
  · exact .refl s
  · unfold State.stepClock
    dsimp only
    split <;> exact ⟨rfl, rfl, .inl rfl, rfl, le_rfl⟩

theorem State.afterApply_path (s : State) : s.LeavesPath s.afterApply := by
  have resume (u : State) (hu : s.LeavesPath u) : s.LeavesPath (if u.setup.pendingApply then
      { u with setup := { u.setup with pendingApply := false } }.startApply else u) := by
    split
    · exact hu.trans ⟨rfl, rfl, .inl rfl, rfl, le_rfl⟩
    · exact hu
  unfold State.afterApply
  split
  · refine resume _ (.trans ?_ (State.dealWith_path _ _ _))
    exact ⟨rfl, rfl, .inl rfl, rfl, le_rfl⟩
  · exact resume _ (.refl s)

theorem State.completeValidation_path (s : State) : s.LeavesPath s.completeValidation := by
  unfold State.completeValidation
  split
  · refine .trans ?_ (State.afterApply_path _)
    exact ⟨rfl, rfl, .inl rfl, rfl, le_rfl⟩
  · exact ⟨rfl, rfl, .inl rfl, rfl, le_rfl⟩

/-! ### Answers of the memory, and the intake queue -/

theorem State.answerFetch_path (answer : ReadAnswer 16) (s : State) : s.LeavesPath (s.answerFetch answer) := by
  cases answer <;> exact ⟨rfl, rfl, .inr rfl, rfl, le_rfl⟩

theorem State.takeReserveRead_path (answer : ReadAnswer 8) (s : State) : s.LeavesPath (s.takeReserveRead answer) := by
  unfold State.takeReserveRead
  cases answer with
  | error => exact ⟨rfl, rfl, .inr rfl, rfl, le_rfl⟩
  | ok d =>
    dsimp only
    split
    · exact ⟨rfl, rfl, .inr rfl, rfl, le_rfl⟩
    · split <;> exact ⟨rfl, rfl, .inr rfl, rfl, le_rfl⟩

theorem State.takeConditionalWrite_path (answer : Answer) (s : State) :
    s.LeavesPath (s.takeConditionalWrite answer) := by
  cases answer <;> exact ⟨rfl, rfl, .inr rfl, rfl, le_rfl⟩

theorem State.answerInitialisingWrite_path (answer : Answer) (s : State) :
    s.LeavesPath (s.answerInitialisingWrite answer) := by
  cases answer <;> exact ⟨rfl, rfl, .inr rfl, rfl, le_rfl⟩

theorem State.answerMirror_path (answer : Answer) (s : State) : s.LeavesPath (s.answerMirror answer) := by
  cases answer <;> exact ⟨rfl, rfl, .inr rfl, rfl, le_rfl⟩

theorem State.answerPassthrough_path (answer : PassAnswer) (s : State) :
    s.LeavesPath (s.answerPassthrough answer) := ⟨rfl, rfl, .inr rfl, rfl, le_rfl⟩

theorem State.takeObservation_path (s : State) : s.LeavesPath s.takeObservation := by
  unfold State.takeObservation
  split
  · exact .refl s
  · dsimp only
    split <;> exact ⟨rfl, rfl, .inl rfl, rfl, le_rfl⟩

theorem State.takeRecord_path (s : State) : s.LeavesPath s.takeRecord := by
  unfold State.takeRecord
  split
  · exact .refl s
  · next r rest hqueue =>
    obtain ⟨sp, rd, al, hu⟩ := State.afterRemoval_eq { s with intake := { s.intake with queue := rest } }
    have hlen : rest.length ≤ s.intake.queue.length := by
      rw [hqueue]
      exact Nat.le_succ _
    dsimp only
    rw [hu]
    split
    · exact ⟨rfl, rfl, .inl rfl, rfl, hlen⟩
    · obtain ⟨M, L, al', hr, -⟩ := State.handleRecord_eq r _ _
      rw [hr]
      exact ⟨rfl, rfl, .inl rfl, rfl, hlen⟩

end Sys2Proof.Machine
end

section
/-! SUPPORT. The bounds of the queues and counts, and the space of the rings, over every step (R32, R82, R108, R115,
R132, R137, section 4.1). -/

namespace Sys2Proof.Machine

/-! ### The effects that act on the memory path -/

/-- The effects that act on the Result Writer, the port or the intake queue, or that install a setup. -/
inductive PathEffect (s : State) : State → Prop
  | reset (inReset : Bool) (base : BitVec 8) :
      PathEffect s (State.hardReset s.pending inReset s.pass.port.orphaned base s.tally.draws)
  | arbitrate : PathEffect s s.arbitrate
  | consumer : PathEffect s s.takeConsumer
  | handOver (h : s.writer.queue.length < 16) : PathEffect s s.handOverHead
  | missHandOver (h : s.writer.queue.length < 16) : PathEffect s s.handOverMiss
  | takeIntoHand (h : s.writer.step = none) (hi : s.writer.initOwed = false) : PathEffect s s.takeHead
  | recordAnswer (answer : Answer) (h : s.pass.port.isRecordWrite = true) :
      PathEffect s (s.answerRecordWrite answer)
  | indexAnswer (answer : Answer) (h : s.pass.port.isIndexWrite = true) :
      PathEffect s (s.answerIndexWrite answer)
  | fetchEnd (h : s.setup.part = .fetching) : PathEffect s s.completeFetch
  | installed (h : s.setup.part = .applying .drain) (hr : s.ringsClear = true) : PathEffect s s.install

/-- Every other effect leaves them. -/
theorem Effect.path {s u : State} (h : Effect s u) : s.LeavesPath u ∨ PathEffect s u := by
  cases h
  case reset r b _ => exact .inr (.reset r b)
  case arbitrate => exact .inr .arbitrate
  case consumer => exact .inr .consumer
  case handOver h => exact .inr (.handOver h)
  case missHandOver h => exact .inr (.missHandOver h)
  case takeIntoHand h hi => exact .inr (.takeIntoHand h hi)
  case recordAnswer a h => exact .inr (.recordAnswer a h)
  case indexAnswer a h => exact .inr (.indexAnswer a h)
  case fetchEnd h => exact .inr (.fetchEnd h)
  case installed h hr => exact .inr (.installed h hr)
  all_goals refine .inl ?_
  case assemblyTimeout => exact ⟨rfl, rfl, .inl rfl, rfl, le_rfl⟩
  case spill => exact s.enterSpill_path
  case upstreamWrite => exact State.presentWrite_path _ _ s
  case upstreamRead => exact State.presentRead_path _ _ s
  case holdRelease => exact s.releaseHold_path
  case readRelease => exact s.releaseRead_path
  case capture => exact s.capture_path
  case clockWord => exact s.takeClockWord_path
  case generation => exact s.takeGeneration_path
  case observation => exact s.takeObservation_path
  case command => exact s.takeCommand_path
  case passthrough a => exact s.answerPassthrough_path a
  case recordTake => exact s.takeRecord_path
  case initialisingAnswer a => exact s.answerInitialisingWrite_path a
  case reserveAnswer a => exact s.takeReserveRead_path a
  case conditionalAnswer a => exact s.takeConditionalWrite_path a
  case fetchAnswer a _ => exact s.answerFetch_path a
  case mirrorAnswer a => exact s.answerMirror_path a
  case validated => exact s.completeValidation_path
  case boundaryExpiry => exact ⟨by simp, by simp, .inl (by simp), by simp, by simp⟩
  case portFreed => exact ⟨rfl, rfl, .inr rfl, rfl, le_rfl⟩
  all_goals exact ⟨rfl, rfl, .inl rfl, rfl, le_rfl⟩

/-! ### What the arbiter's grant does to the memory path -/

/-- Records joined the writer queue, which held them. -/
def Writer.Appended (w w' : Writer) : Prop :=
  ∃ extra, w' = { w with queue := w.queue ++ extra } ∧ (w.queue.length ≤ 16 → (w.queue ++ extra).length ≤ 16)

theorem Writer.Appended.refl (w : Writer) : w.Appended w := ⟨[], by simp, by simp⟩

theorem Writer.Appended.trans {v w x : Writer} (h : v.Appended w) (g : w.Appended x) : v.Appended x := by
  obtain ⟨e, rfl, hlen⟩ := h
  obtain ⟨e', rfl, hlen'⟩ := g
  exact ⟨e ++ e', by simp, fun hv => by simpa using hlen' (hlen hv)⟩

theorem Writer.Appended.one {w : Writer} (hroom : w.queue.length < 16) (r : ResultRecord) :
    w.Appended { w with queue := w.queue ++ [r] } :=
  ⟨[r], rfl, fun _ => by rw [List.length_append]; exact hroom⟩

theorem State.handOverHead_appended {s : State} (hroom : s.writer.queue.length < 16) :
    s.writer.Appended s.handOverHead.writer := by
  unfold State.handOverHead
  split
  · exact .refl _
  · dsimp only
    split
    · exact .refl _
    · exact .one hroom _

theorem State.matchNotice_appended (m : Image) (a : Nat) (ws : List WriteWord) (s : State) :
    s.writer.Appended (s.matchNotice m a ws).writer :=
  State.matchNotice_keeps (P := fun t => s.writer.Appended t.writer)
    (fun u h hroom => h.trans (State.handOverHead_appended (by
      unfold State.handOversTaken at hroom
      simp only [Bool.or_eq_false_iff, decide_eq_false_iff_not, not_le] at hroom
      exact hroom.2)))
    (fun _ _ _ _ h => h) m a ws s (.refl _)

/-- What a grant leaves of the memory path, and what it adds to it. -/
structure State.Granted (s u : State) : Prop where
  setup : u.setup = s.setup
  writer : s.writer.Appended u.writer ∨
    ∃ n : Fin 16, (s.writer.rings[n]).initOwed = true ∧ u.writer = s.writer.initGranted n
  port : u.pass.port = s.pass.port ∨
    (u.pass.port.isRecordWrite = true ∨ u.pass.port.isIndexWrite = true → s.writer.step.isSome = true)
  runCount : u.pass.runCount = s.pass.runCount
  queue : s.intake.queue.length ≤ 64 → u.intake.queue.length ≤ 64

theorem State.writeNotice_granted (a : Nat) (ws : List WriteWord) (s : State) : s.Granted (s.writeNotice a ws) := by
  cases hw : s.setup.part.working
  · rw [State.writeNotice_resting a ws s hw]
    exact ⟨rfl, .inl (.refl _), .inl rfl, rfl, id⟩
  · obtain ⟨x, rfl, e⟩ := State.writeNotice_working a ws s hw
    rw [e]
    have hpass := State.matchNotice_pass s.cfg a ws (s.withDesk (s.desk.notice s.cfg s.pass.spilling a ws))
    refine ⟨by simp, .inl (State.matchNotice_appended _ _ _ (s.withDesk _)), .inl (congrArg Pass.port hpass :),
      (congrArg Pass.runCount hpass :), fun h => ?_⟩
    have hkept := Desk.queue_kept.notice s.cfg s.pass.spilling a ws s.desk h
    simpa using hkept

theorem State.grantPassthrough_granted (s : State) : s.Granted s.grantPassthrough := by
  unfold State.grantPassthrough
  split
  · obtain ⟨hsetup, hwriter, hport, hrun, hqueue⟩ := State.writeNotice_granted _ _
      { s with pass := { s.pass with port := .passthrough } }
    refine ⟨hsetup, hwriter, .inr ?_, hrun, hqueue⟩
    rcases hport with hport | hport
    · rw [hport]
      nofun
    · exact hport
  · exact ⟨rfl, .inl (.refl _), .inr nofun, rfl, id⟩
  · exact ⟨rfl, .inl (.refl _), .inl rfl, rfl, id⟩

theorem State.grantTally_granted (c : Client) (s : State) : s.Granted (s.grantTally c) := by
  unfold State.grantTally
  split
  · exact ⟨rfl, .inl (.refl _), .inl rfl, rfl, id⟩
  · dsimp only
    split <;> exact ⟨rfl, .inl (.refl _), .inr nofun, rfl, id⟩

/-- The Result Writer requests a record or index write for a record in hand, and an initialising write that a ring
is owed (R113, R114, R119). -/
theorem State.writerRequest_cases {s : State} {c : Client} {t : Txn} (h : s.writerRequest = some (c, t)) :
    (s.writer.step.isSome = true ∧ (c = .recordWrite ∨ c = .indexWrite)) ∨
    ∃ n : Fin 16, c = .initialisingWrite n ∧ (s.writer.rings[n]).initOwed = true := by
  unfold State.writerRequest at h
  split at h
  case h_5 =>
    split at h
    · next n hn =>
      obtain ⟨rfl, -⟩ := Prod.mk.inj (Option.some.inj h)
      exact .inr ⟨n, rfl, by simpa using List.find?_some hn⟩
    · cases h
  all_goals
    next hstep _ =>
    obtain ⟨rfl, -⟩ := Prod.mk.inj (Option.some.inj h)
    exact .inl ⟨by rw [hstep]; rfl, by simp⟩

theorem State.grantWriter_granted {c : Client} {t : Txn} {s : State} (h : s.writerRequest = some (c, t)) :
    s.Granted (s.grantWriter c t) := by
  rcases State.writerRequest_cases h with ⟨hstep, rfl | rfl⟩ | ⟨n, rfl, howed⟩
  · exact ⟨rfl, .inl (.refl _), .inr fun _ => hstep, rfl, id⟩
  · exact ⟨rfl, .inl (.refl _), .inr fun _ => hstep, rfl, id⟩
  · exact ⟨rfl, .inr ⟨n, howed, rfl⟩, .inr nofun, rfl, id⟩

/-- A choice of the Result Writer is its request. -/
theorem State.internalChoice_writer {o : Option Client} {s : State} {c : Client} {t : Txn}
    (h : s.internalChoice o = some (.writer c t)) : s.writerRequest = some (c, t) := by
  unfold State.internalChoice at h
  split at h
  · cases h
  · split at h
    · cases h
    · split at h
      case h_2 hreq _ | h_4 hreq =>
        cases h
        exact hreq
      all_goals cases h

theorem State.choose_writer {o : Option Client} {s : State} {c : Client} {t : Txn} {n : Nat}
    (h : s.choose o = some (.writer c t, n)) : s.writerRequest = some (c, t) := by
  unfold State.choose at h
  split at h
  case h_4 => cases h
  case h_1 => cases h
  case h_2 hchoice =>
    split at h
    · cases h
    · cases h
      exact State.internalChoice_writer hchoice
  case h_3 hchoice =>
    cases h
    exact State.internalChoice_writer hchoice

/-- The run count rises with a passthrough below 4 and is 0 after any other grant (R13). -/
theorem State.choose_runCount {o : Option Client} {s : State} {c : Choice} {n : Nat}
    (h : s.choose o = some (c, n)) : n ≤ 4 := by
  unfold State.choose at h
  split at h
  case h_4 => cases h
  case h_2 =>
    split at h
    · cases h
      assumption
    · cases h
      exact Nat.zero_le _
  all_goals
    cases h
    exact Nat.zero_le _

theorem State.grant_granted {o : Option Client} {s : State} {c : Choice} {n : Nat} (h : s.choose o = some (c, n)) :
    (s.setRunCount n).Granted ((s.setRunCount n).grant c) := by
  cases c with
  | passthrough => exact State.grantPassthrough_granted _
  | fetch => exact ⟨rfl, .inl (.refl _), .inr nofun, rfl, id⟩
  | mirror g => exact ⟨rfl, .inl (.refl _), .inr nofun, rfl, id⟩
  | tally client => exact State.grantTally_granted client _
  | writer client txn => exact State.grantWriter_granted (s := s.setRunCount n) (State.choose_writer (s := s) h :)

/-- An arbiter decision keeps the run count within 4 and then does what a grant does. -/
theorem State.decideAmong_granted (o : Option Client) (s : State) :
    ∃ n, (s.pass.runCount ≤ 4 → n ≤ 4) ∧ (s.setRunCount n).Granted (s.decideAmong o) := by
  unfold State.decideAmong
  split
  · next c n hchoose => exact ⟨n, fun _ => State.choose_runCount hchoose, State.grant_granted hchoose⟩
  · exact ⟨s.pass.runCount, id, ⟨rfl, .inl (.refl _), .inl rfl, rfl, id⟩⟩

theorem State.arbitrate_granted (s : State) :
    ∃ n, (s.pass.runCount ≤ 4 → n ≤ 4) ∧ (s.setRunCount n).Granted s.arbitrate := by
  unfold State.arbitrate
  split
  · obtain ⟨n, hn, hsetup, hwriter, hport, hrun, hqueue⟩ :=
      State.decideAmong_granted none (s.withLedger (s.ledger.loss s.cfg false))
    exact ⟨n, hn, hsetup, hwriter, hport, hrun, hqueue⟩
  · exact s.decideAmong_granted _

end Sys2Proof.Machine
end

section
/-! SUPPORT. The bounds of the queues and counts over every step (R32, R82, R108, R109, R126, R132, R137). -/

namespace Sys2Proof.Machine

/-! ### The installations -/

/-- The state with a new setup in force and the rings that it leaves. -/
def State.withInstalled (old new : Image) (s : State) : State :=
  { s with writer := s.writer.installed old new, setup := { s.setup with active := some new } }

theorem State.installUnits_path (old new : Image) (had : Bool) (s : State) :
    (s.withInstalled old new).LeavesPath (s.installUnits old new had) := by
  obtain ⟨hr, sp, rd, al, h, -⟩ := State.installUnits_eq old new had s
  rw [h]
  exact ⟨rfl, rfl, .inl rfl, rfl, le_rfl⟩

theorem State.install_path (s : State) : (s.withInstalled s.cfg s.candidateImage).LeavesPath s.install := by
  refine .trans ?_ (State.afterApply_path _)
  exact (State.installUnits_path _ _ _ s).trans ⟨rfl, rfl, .inl rfl, rfl, le_rfl⟩

/-- The end of a fetch installs against no setup, or rejects (R147). -/
theorem State.completeFetch_path (s : State) :
    s.LeavesPath s.completeFetch ∨ (s.withInstalled [] s.candidateImage).LeavesPath s.completeFetch := by
  have ended (t u : State) (hu : t.LeavesPath u) : t.LeavesPath (if s.setup.shadow.generation =
      s.candidateImage.generation then u.endFetch else u.endFetch.startApply) := by
    split <;> exact hu.trans ⟨rfl, rfl, .inl rfl, rfl, le_rfl⟩
  cases hvalid : s.candidateImage.validate s.setup.blockAddress with
  | some r =>
    refine .inl ?_
    unfold State.completeFetch
    apply ended
    rw [hvalid]
    exact ⟨rfl, rfl, .inl rfl, rfl, le_rfl⟩
  | none =>
    refine .inr ?_
    unfold State.completeFetch
    apply ended
    rw [hvalid]
    exact (State.installUnits_path _ _ _ s).trans ⟨rfl, rfl, .inl rfl, rfl, le_rfl⟩

/-! ### The queues -/

/-- The intake queue, the writer queue and the run count keep to their bounds. -/
def State.Bounded (s : State) : Prop :=
  s.intake.queue.length ≤ 64 ∧ s.writer.queue.length ≤ 16 ∧ s.pass.runCount ≤ 4

theorem State.LeavesPath.bounded {s u : State} (g : s.LeavesPath u) (h : s.Bounded) : u.Bounded := by
  obtain ⟨hintake, hwriter, hrun⟩ := h
  exact ⟨g.queue.trans hintake, g.writer ▸ hwriter, g.runCount.trans_le hrun⟩

theorem State.LeavesPath.freePort (s : State) : s.LeavesPath s.freePort := ⟨rfl, rfl, .inr rfl, rfl, le_rfl⟩

theorem State.Bounded.finish {s : State} (h : s.Bounded) {rs : Vector Ring 16} {al : Alerts} :
    ({ s with writer := { queue := s.writer.queue.tail, step := none, rings := rs }, alerts := al } : State).Bounded :=
  ⟨h.1, (by simp : s.writer.queue.tail.length ≤ s.writer.queue.length).trans h.2.1, h.2.2⟩

theorem State.discardRecord_bounded {s : State} (h : s.Bounded) : s.discardRecord.Bounded := by
  unfold State.discardRecord
  split <;> exact h.finish

theorem State.publishRecord_bounded {s : State} (h : s.Bounded) : s.publishRecord.Bounded := by
  unfold State.publishRecord
  split <;> exact h.finish

/-- A record write's answer frees the port; the Result Writer goes on with the record or discards it (R113). -/
theorem State.answerRecordWrite_cases (answer : Answer) (s : State) :
    (∃ w, s.answerRecordWrite answer = s.freePort.writerStep w) ∨
    s.answerRecordWrite answer = s.freePort.discardRecord := by
  cases answer with
  | ok => exact .inl ⟨_, rfl⟩
  | error =>
    unfold State.answerRecordWrite
    dsimp only
    split
    · exact .inr rfl
    · exact .inl ⟨_, rfl⟩

/-- An index write's answer frees the port; the record is published, or tried again, or discarded (R114). -/
theorem State.answerIndexWrite_cases (answer : Answer) (s : State) :
    (∃ w, s.answerIndexWrite answer = s.freePort.writerStep w) ∨
    s.answerIndexWrite answer = s.freePort.publishRecord ∨ s.answerIndexWrite answer = s.freePort.discardRecord := by
  cases answer with
  | ok => exact .inr (.inl rfl)
  | error =>
    unfold State.answerIndexWrite
    dsimp only
    split
    · exact .inr (.inr rfl)
    · exact .inl ⟨_, rfl⟩

theorem State.takeHead_bounded {s : State} (h : s.Bounded) : s.takeHead.Bounded := by
  unfold State.takeHead
  split
  · exact h
  · next r rest hqueue =>
    dsimp only
    split
    · exact h.finish
    · split
      · exact h.finish
      · refine ⟨h.1, ?_, h.2.2⟩
        have hlen := h.2.1
        rw [hqueue] at hlen
        exact hlen

/-- A consumer index write leaves the rings but for their shadows (R115). -/
theorem State.takeConsumer_path (s : State) : ∃ rs : Vector Ring 16,
    ({ s with writer := { s.writer with rings := rs } } : State).LeavesPath s.takeConsumer ∧
    ∀ n : Fin 16, { rs[n] with shadow := (s.writer.rings[n]).shadow } = s.writer.rings[n] := by
  unfold State.takeConsumer
  split
  · exact ⟨_, .refl s, fun _ => rfl⟩
  · obtain ⟨rs, al, h, -, hrings⟩ := State.consumerNotice_eq _ _ _
    rw [h]
    exact ⟨rs, ⟨rfl, rfl, .inl rfl, rfl, le_rfl⟩, hrings⟩

theorem Effect.bounded {s u : State} (e : Effect s u) (h : s.Bounded) : u.Bounded := by
  rcases e.path with hleaves | hpath
  · exact hleaves.bounded h
  cases hpath with
  | reset r b => exact ⟨Nat.zero_le _, Nat.zero_le _, Nat.zero_le _⟩
  | arbitrate =>
    obtain ⟨n, hn, -, hwriter, -, hrun, hqueue⟩ := s.arbitrate_granted
    obtain ⟨hintake, hlen, hcount⟩ := h
    refine ⟨hqueue hintake, ?_, hrun.trans_le (hn hcount)⟩
    rcases hwriter with ⟨extra, hw, hroom⟩ | ⟨k, -, hw⟩
    · rw [hw]
      exact hroom hlen
    · rw [hw]
      exact hlen
  | consumer =>
    obtain ⟨rs, hleaves, -⟩ := s.takeConsumer_path
    exact hleaves.bounded h
  | handOver hroom =>
    obtain ⟨extra, hw, hlen⟩ := State.handOverHead_appended hroom
    refine ⟨by simpa using h.1, ?_, by simpa using h.2.2⟩
    rw [hw]
    exact hlen h.2.1
  | missHandOver hroom =>
    unfold State.handOverMiss
    split
    · exact h
    · refine ⟨h.1, ?_, h.2.2⟩
      exact (List.length_append ..).trans_le hroom
  | takeIntoHand _ _ => exact State.takeHead_bounded h
  | recordAnswer answer _ =>
    rcases s.answerRecordWrite_cases answer with ⟨w, e⟩ | e <;> rw [e]
    · exact h
    · exact State.discardRecord_bounded (s := s.freePort) h
  | indexAnswer answer _ =>
    rcases s.answerIndexWrite_cases answer with ⟨w, e⟩ | e | e <;> rw [e]
    · exact h
    · exact State.publishRecord_bounded (s := s.freePort) h
    · exact State.discardRecord_bounded (s := s.freePort) h
  | fetchEnd _ =>
    rcases s.completeFetch_path with hleaves | hleaves
    · exact hleaves.bounded h
    · exact hleaves.bounded (s := s.withInstalled _ _) h
  | installed _ _ => exact s.install_path.bounded (s := s.withInstalled _ _) h

/-! ### The miss list and the loss count (R132, R137) -/

theorem Ledger.sendToMissList_misses (r : MissReason) (l : Bool) {x : Ledger} (h : x.tally.misses.length ≤ 16) :
    (x.sendToMissList r l).tally.misses.length ≤ 16 := by
  unfold Ledger.sendToMissList
  split
  · exact h
  · exact Ledger.miss_length r l _ _ h

theorem Ledger.sendToMissList_losses (r : MissReason) (l : Bool) (x : Ledger) :
    (x.sendToMissList r l).tally.losses = 0 := by
  unfold Ledger.sendToMissList
  split
  · rfl
  · exact (congrArg Tally.losses (Ledger.miss_tally_frame r l _ _) :)

theorem Tally.misses_kept : Tally.Kept (fun t => t.misses.length ≤ 16) where
  same _ _ hsame h := by
    obtain ⟨-, -, -, hmisses⟩ := hsame
    exact hmisses ▸ h
  reset _ := Nat.zero_le _
  broken m a ws t h := by
    unfold Tally.breakReservation
    split
    · split <;> exact h
    · exact h
  readOut _ _ h := h
  granted _ h := h
  loss m l x h := by
    unfold Ledger.loss
    dsimp only
    split
    · exact Ledger.sendToMissList_misses _ _ h
    · exact h
  fail r x h := Ledger.sendToMissList_misses (x := { x with alerts := _ }) r false h
  missTaken t x rest hmisses h := by
    rw [hmisses] at h
    exact (Nat.le_succ _).trans h
  retry _ _ h := h
  inHand _ _ h := h
  computed _ _ h := h
  finish _ h := h

/-- The eighth loss ends the service (R132). -/
theorem Tally.losses_kept : Tally.Kept (fun t => t.losses ≤ 7) where
  same _ _ hsame h := by
    obtain ⟨-, -, hlosses, -⟩ := hsame
    exact hlosses ▸ h
  reset _ := Nat.zero_le _
  broken m a ws t h := by
    unfold Tally.breakReservation
    split
    · split <;> exact h
    · exact h
  readOut _ _ h := h
  granted _ h := h
  loss m l x h := by
    unfold Ledger.loss
    dsimp only
    split
    · exact (Ledger.sendToMissList_losses _ _ _).trans_le (Nat.zero_le _)
    · next hfew => exact Nat.lt_succ_iff.mp (Nat.lt_of_not_le hfew)
  fail r x _ := (Ledger.sendToMissList_losses _ _ _).trans_le (Nat.zero_le _)
  missTaken _ _ _ _ h := h
  retry _ _ h := h
  inHand _ _ _ := Nat.zero_le _
  computed _ _ h := h
  finish _ _ := Nat.zero_le _

/-! ### The counts of the rings (R108) -/

/-- The ring that a condition on each ring speaks of, replaced by one that meets it. -/
theorem Writer.setRing_all {R : Fin 16 → Ring → Prop} {w : Writer} (h : ∀ k : Fin 16, R k w.rings[k]) {n : Fin 16}
    {r : Ring} (hr : R n r) (k : Fin 16) : R k (w.setRing n r).rings[k] := by
  by_cases hk : k = n
  · subst hk
    simpa [Writer.setRing] using hr
  · show R k (w.rings.set n r)[k]
    rw [set_get_other _ _ _ _ hk]
    exact h k

/-- The overrun and pending lost counts keep their widths. -/
def Ring.Counts (r : Ring) : Prop := r.overrun ≤ 65535 ∧ r.pendingLost ≤ 255

theorem Ring.Counts.lose (r : Ring) : r.lose.Counts := ⟨Nat.min_le_right _ _, Nat.min_le_right _ _⟩

theorem Ring.Counts.unreserve (r : Ring) : r.unreserve.Counts := by
  unfold Ring.unreserve
  split <;> exact Ring.Counts.lose r

theorem Ring.Counts.installed {r : Ring} (h : r.Counts) (old new : Image) (n : Fin 16) :
    (r.installed old new n).Counts := by
  unfold Ring.installed
  split
  · exact ⟨Nat.zero_le _, Nat.zero_le _⟩
  · split
    · exact ⟨Nat.zero_le _, Nat.zero_le _⟩
    · exact h

/-- Every ring's counts keep their widths. -/
def Writer.Counts (w : Writer) : Prop := ∀ n : Fin 16, (w.rings[n]).Counts

theorem Writer.Counts.setRing {w : Writer} (h : w.Counts) (n : Fin 16) {r : Ring} (hr : r.Counts) :
    (w.setRing n r).Counts := Writer.setRing_all (R := fun _ r => r.Counts) h hr

theorem Writer.Counts.installed {w : Writer} (h : w.Counts) (old new : Image) : (w.installed old new).Counts := by
  intro n
  have hring : (w.installed old new).rings[n] = (w.rings[n]).installed old new n := tabulate_get _ _ _
  rw [hring]
  exact (h n).installed old new n

theorem State.discardRecord_counts {s : State} (h : s.writer.Counts) : s.discardRecord.writer.Counts := by
  unfold State.discardRecord
  split
  · exact h
  · exact h.setRing _ (.unreserve _)

theorem State.publishRecord_counts {s : State} (h : s.writer.Counts) : s.publishRecord.writer.Counts := by
  unfold State.publishRecord
  split
  · exact h
  · exact h.setRing _ ⟨(h _).1, Nat.zero_le _⟩

theorem State.takeHead_counts {s : State} (h : s.writer.Counts) : s.takeHead.writer.Counts := by
  unfold State.takeHead
  split
  · exact h
  · dsimp only
    split
    · exact h
    · split
      · exact h.setRing _ (.lose _)
      · exact h.setRing _ (h _)

theorem Effect.ringCounts {s u : State} (e : Effect s u) (h : s.writer.Counts) : u.writer.Counts := by
  rcases e.path with hleaves | hpath
  · rw [hleaves.writer]
    exact h
  cases hpath with
  | reset r b => exact fun n => by simp [Writer.hardReset, Ring.Counts, Ring.cleared, State.hardReset]
  | arbitrate =>
    obtain ⟨_, _, -, hwriter, -⟩ := s.arbitrate_granted
    rcases hwriter with ⟨extra, hw, -⟩ | ⟨n, -, hw⟩
    · rw [hw]
      exact h
    · rw [hw]
      exact h.setRing n (h n)
  | consumer =>
    obtain ⟨rs, hleaves, hrings⟩ := s.takeConsumer_path
    rw [hleaves.writer]
    intro n
    have hn := h n
    rw [← hrings n] at hn
    exact hn
  | handOver hroom =>
    obtain ⟨extra, hw, -⟩ := State.handOverHead_appended hroom
    rw [hw]
    exact h
  | missHandOver _ =>
    unfold State.handOverMiss
    split <;> exact h
  | takeIntoHand _ _ => exact State.takeHead_counts h
  | recordAnswer answer _ =>
    rcases s.answerRecordWrite_cases answer with ⟨w, e⟩ | e <;> rw [e]
    · exact h
    · exact State.discardRecord_counts (s := s.freePort) h
  | indexAnswer answer _ =>
    rcases s.answerIndexWrite_cases answer with ⟨w, e⟩ | e | e <;> rw [e]
    · exact h
    · exact State.publishRecord_counts (s := s.freePort) h
    · exact State.discardRecord_counts (s := s.freePort) h
  | fetchEnd _ =>
    rcases s.completeFetch_path with hleaves | hleaves
    · rw [hleaves.writer]
      exact h
    · rw [hleaves.writer]
      exact h.installed _ _
  | installed _ _ =>
    rw [s.install_path.writer]
    exact h.installed _ _

end Sys2Proof.Machine
end

section
/-! SUPPORT. The space of the rings over every step (R107 to R120). -/

namespace Sys2Proof.Machine

/-! ### One ring -/

/-- The ring of line `n` leaves at most its size unread where it is in force, and stands at its start while it is
owed its initialising write (R115, R119). -/
structure Ring.Sound (active : Option Image) (n : Fin 16) (r : Ring) : Prop where
  space : ∀ m, active = some m → m.kind n ≠ .none → (r.reservedProducer - r.shadow).toNat ≤ m.ringSize n
  owed : r.initOwed = true → r.producer = 0 ∧ r.reserved = false

variable {active : Option Image} {n : Fin 16} {r : Ring}

theorem Ring.Sound.cleared : Ring.cleared.Sound active n := ⟨fun _ _ _ => Nat.zero_le _, nofun⟩

theorem Ring.Sound.restarted : Ring.restarted.Sound active n := ⟨fun _ _ _ => Nat.zero_le _, fun _ => ⟨rfl, rfl⟩⟩

/-- An initialising write granted: the ring and its shadow stand at the start (R119). -/
theorem Ring.Sound.granted (h : r.Sound active n) (howed : r.initOwed = true) :
    ({ r with initOwed := false, shadow := 0 } : Ring).Sound active n := by
  obtain ⟨hproducer, hreserved⟩ := h.owed howed
  refine ⟨fun m _ _ => ?_, nofun⟩
  simp [Ring.reservedProducer, hproducer, hreserved]

/-- A full ring loses the record in hand: its producer stays (R111). -/
theorem Ring.Sound.lose_full {m : Image} (h : r.Sound (some m) n) (hfull : r.occupancy = m.ringSize n) :
    r.lose.Sound (some m) n := by
  refine ⟨fun m' hm' _ => ?_, fun howed => ⟨(h.owed howed).1, rfl⟩⟩
  obtain rfl := Option.some.inj hm'
  exact hfull.le

/-- A ring that is not full reserves a slot (R112). -/
theorem Ring.Sound.reserve {m : Image} (h : r.Sound (some m) n) (hkind : m.kind n ≠ .none)
    (hroom : r.occupancy ≠ m.ringSize n) (howed : r.initOwed = false) :
    ({ r with reserved := true } : Ring).Sound (some m) n := by
  refine ⟨fun m' hm' _ => ?_, fun h' => by simp [howed] at h'⟩
  obtain rfl := Option.some.inj hm'
  have hspace := h.space m rfl hkind
  unfold Ring.occupancy at hroom
  unfold Ring.reservedProducer at hspace ⊢
  dsimp only
  rw [if_pos rfl]
  split at hspace
  · exact hspace
  · bv_omega

/-- A discarded record's reservation ends, and a shadow beyond the producer falls back to it (R114). -/
theorem Ring.Sound.unreserve (h : r.Sound active n) (hreserved : r.reserved = true) : r.unreserve.Sound active n := by
  have hstart : r.initOwed = false := by
    by_contra howed
    simp [(h.owed (by simpa using howed)).2] at hreserved
  refine ⟨fun m hm hkind => ?_, fun howed => ?_⟩
  · have hspace := h.space m hm hkind
    unfold Ring.reservedProducer at hspace
    rw [if_pos hreserved] at hspace
    unfold Ring.unreserve
    split
    · simp [Ring.reservedProducer, Ring.lose]
    · next hshadow =>
      show (r.producer - r.shadow).toNat ≤ m.ringSize n
      bv_omega
  · rw [Ring.unreserve_eq, hstart] at howed
    cases howed

/-- The published record's slot was reserved: the reserved producer stays (R114). -/
theorem Ring.Sound.publish (h : r.Sound active n) (hreserved : r.reserved = true) :
    ({ r with producer := r.producer + 1, reserved := false, pendingLost := 0 } : Ring).Sound active n := by
  refine ⟨fun m hm hkind => ?_, fun howed => by simp [(h.owed howed).2] at hreserved⟩
  have hspace := h.space m hm hkind
  unfold Ring.reservedProducer at hspace
  rw [if_pos hreserved] at hspace
  exact hspace

/-- A valid consumer index leaves at most the ring's size unread (R115). -/
theorem Ring.Sound.consumed {m : Image} (h : r.Sound (some m) n) {v : BitVec 16}
    (hvalid : (r.reservedProducer - v).toNat ≤ m.ringSize n) : ({ r with shadow := v } : Ring).Sound (some m) n :=
  ⟨fun _ hm' _ => Option.some.inj hm' ▸ hvalid, h.owed⟩

/-- A ring that neither leaves nor restarts keeps its kind, base and size. -/
theorem Ring.Sound.installed {old new : Image} (h : r.Sound active n)
    (hactive : old.kind n ≠ .none → active = some old) : (r.installed old new n).Sound (some new) n := by
  unfold Ring.installed
  split
  · exact .cleared
  · next hkind =>
    split
    · exact .restarted
    · next hkept =>
      simp only [ringRestarts, Bool.and_eq_true, Bool.or_eq_true, bne_iff_ne, beq_iff_eq, not_and, not_or,
        not_not] at hkept
      obtain ⟨⟨hold, -⟩, hsize⟩ := hkept hkind
      refine ⟨fun m hm _ => ?_, h.owed⟩
      obtain rfl := Option.some.inj hm
      rw [← hsize]
      exact h.space old (hactive hold) hold

/-! ### The Result Writer -/

/-- Every ring is sound, and a record in hand is the head of the queue, its ring in force and reserved (R110). -/
structure Writer.Sound (active : Option Image) (w : Writer) : Prop where
  rings : ∀ n : Fin 16, (w.rings[n]).Sound active n
  inHand : w.step.isSome = true → ∃ m r rest, active = some m ∧ w.queue = r :: rest ∧
    m.kind r.line ≠ .none ∧ (w.rings[r.line]).reserved = true

variable {w w' : Writer}

theorem Writer.Sound.appended (h : w.Sound active) (ha : w.Appended w') : w'.Sound active := by
  obtain ⟨extra, rfl, -⟩ := ha
  refine ⟨h.rings, fun hstep => ?_⟩
  obtain ⟨m, r, rest, hm, hqueue, hkind, hreserved⟩ := h.inHand hstep
  exact ⟨m, r, rest ++ extra, hm, by simp [hqueue], hkind, hreserved⟩

theorem Writer.Sound.finish (h : w.Sound active) : w.finish.Sound active := ⟨h.rings, nofun⟩

theorem Writer.Sound.setRing_finish (h : w.Sound active) {n : Fin 16} {r : Ring} (hr : r.Sound active n) :
    ((w.setRing n r).finish).Sound active := ⟨Writer.setRing_all h.rings hr, nofun⟩

/-- A ring replaced by one with the same reservation. -/
theorem Writer.Sound.setRing (h : w.Sound active) {n : Fin 16} {r : Ring} (hr : r.Sound active n)
    (hreserved : r.reserved = (w.rings[n]).reserved) : (w.setRing n r).Sound active := by
  refine ⟨Writer.setRing_all h.rings hr, fun hstep => ?_⟩
  obtain ⟨m, x, rest, hm, hqueue, hkind, hx⟩ := h.inHand hstep
  exact ⟨m, x, rest, hm, hqueue, hkind,
    Writer.setRing_all (R := fun k r => k = x.line → r.reserved = true) (by rintro _ rfl; exact hx)
      (by rintro rfl; exact hreserved.trans hx) x.line rfl⟩

theorem Writer.Sound.step (h : w.Sound active) (hstep : w.step.isSome = true) (t : WriteStep) :
    ({ w with step := some t } : Writer).Sound active := ⟨h.rings, fun _ => h.inHand hstep⟩

/-! ### The steps of the Result Writer -/

theorem Image.kind_nil (n : Fin 16) : Image.kind [] n = .none := by
  revert n
  decide

/-- Where a line has a kind, a setup is in force. -/
theorem State.active_of_kind {s : State} {n : Fin 16} (h : s.cfg.kind n ≠ .none) : s.setup.active = some s.cfg := by
  have inForce (hcfg : s.cfg = s.setup.active.getD []) : s.setup.active = some s.cfg := by
    cases hactive : s.setup.active with
    | none =>
      rw [hcfg, hactive] at h
      exact absurd (Image.kind_nil n) h
    | some m => simp [hcfg, hactive]
  cases hpart : s.setup.part with
  | active => exact inForce (by simp [State.cfg, Setup.inForce, hpart])
  | applying p => exact inForce (by simp [State.cfg, Setup.inForce, hpart])
  | fetching => exact absurd (by simp [State.cfg, Setup.inForce, hpart, Image.kind_nil]) h
  | unset => exact absurd (by simp [State.cfg, Setup.inForce, hpart, Image.kind_nil]) h

variable {s : State}

theorem State.discardRecord_sound (h : s.writer.Sound s.setup.active) (hstep : s.writer.step.isSome = true) :
    s.discardRecord.writer.Sound s.setup.active := by
  obtain ⟨m, r, rest, -, hqueue, -, hreserved⟩ := h.inHand hstep
  unfold State.discardRecord
  rw [hqueue]
  exact h.setRing_finish ((h.rings _).unreserve hreserved)

theorem State.publishRecord_sound (h : s.writer.Sound s.setup.active) (hstep : s.writer.step.isSome = true) :
    s.publishRecord.writer.Sound s.setup.active := by
  obtain ⟨m, r, rest, -, hqueue, -, hreserved⟩ := h.inHand hstep
  unfold State.publishRecord
  rw [hqueue]
  exact h.setRing_finish ((h.rings _).publish hreserved)

theorem State.takeHead_sound (h : s.writer.Sound s.setup.active)
    (howed : s.writer.initOwed = false) : s.takeHead.writer.Sound s.setup.active := by
  unfold State.takeHead
  split
  · exact h
  · next r rest hqueue =>
    dsimp only
    split
    · exact h.finish
    · next hforce =>
      have hkind : s.cfg.kind r.line ≠ .none := by simpa [Image.ringInForce] using hforce
      have hactive := State.active_of_kind hkind
      have hring := h.rings r.line
      rw [hactive] at h hring ⊢
      split
      · next hfull => exact h.setRing_finish (hring.lose_full hfull)
      · next hroom =>
        have hstart : (s.writer.rings[r.line]).initOwed = false := by
          simp only [Writer.initOwed, List.any_eq_false, Vector.mem_toList_iff] at howed
          simpa using howed _ (Vector.getElem_mem r.line.isLt)
        have hreserve := hring.reserve hkind hroom hstart
        refine ⟨Writer.setRing_all h.rings hreserve, fun _ => ⟨_, _, _, rfl, rfl, hkind, ?_⟩⟩
        simp [Writer.setRing]

theorem State.consumerWord_sound (n : Fin 16) (w : WriteWord) (hkind : s.cfg.kind n ≠ .none)
    (h : s.writer.Sound s.setup.active) : (s.consumerWord n w).writer.Sound s.setup.active := by
  unfold State.consumerWord
  dsimp only
  split
  · split
    · next hvalid =>
      have hring := h.rings n
      rw [State.active_of_kind hkind] at h hring ⊢
      exact h.setRing (hring.consumed hvalid) rfl
    · exact h
  · exact h

theorem State.consumerNotice_sound (a : Nat) (ws : List WriteWord) (h : s.writer.Sound s.setup.active) :
    (s.consumerNotice a ws).writer.Sound s.setup.active := by
  unfold State.consumerNotice
  generalize addressed a ws = l
  induction l generalizing s with
  | nil => exact h
  | cons c rest ih =>
    rw [List.foldl_cons]
    split
    · next n hn =>
      have hkind : s.cfg.kind n ≠ .none := by
        have hforce := List.find?_some hn
        simp only [Image.ringInForce, Bool.and_eq_true, bne_iff_ne] at hforce
        exact hforce.1
      have hone := State.consumerWord_sound n c.2 hkind h
      rw [← State.consumerWord_setup n c.2 s] at hone ⊢
      exact ih hone
    · exact ih h

theorem State.takeConsumer_sound (h : s.writer.Sound s.setup.active) : s.takeConsumer.writer.Sound s.setup.active := by
  unfold State.takeConsumer
  split
  · exact h
  · exact State.consumerNotice_sound (s := s.setNotice _) _ _ h

/-- The installation waits for the records of rings that leave or restart (R119, R157). -/
theorem State.withInstalled_sound (h : s.writer.Sound s.setup.active) (hpart : s.setup.part = .applying .drain)
    (hclear : s.ringsClear = true) : (s.writer.installed s.cfg s.candidateImage).Sound (some s.candidateImage) := by
  have hring (n : Fin 16) : (s.writer.installed s.cfg s.candidateImage).rings[n] =
      (s.writer.rings[n]).installed s.cfg s.candidateImage n := tabulate_get _ _ _
  refine ⟨fun n => ?_, fun hstep => ?_⟩
  · rw [hring]
    exact (h.rings n).installed State.active_of_kind
  · obtain ⟨m, r, rest, hm, hqueue, hkind, hreserved⟩ := h.inHand hstep
    have hcfg : s.cfg = m := by simp [State.cfg, Setup.inForce, hpart, hm]
    have hclear' : leavingRing s.cfg s.candidateImage r.line = false ∧
        ringRestarts s.cfg s.candidateImage r.line = false := by
      unfold State.ringsClear at hclear
      simp only [hqueue, List.all_cons, Bool.and_eq_true, Bool.not_eq_true', Bool.or_eq_false_iff] at hclear
      exact hclear.1.1
    obtain ⟨hstays, hkept⟩ := hclear'
    have hnew : s.candidateImage.kind r.line ≠ .none := fun hnone => by
      simp [leavingRing, hnone, hcfg, hkind] at hstays
    refine ⟨_, r, rest, rfl, hqueue, hnew, ?_⟩
    rw [hring, Ring.installed, if_neg hnew, hkept]
    exact hreserved

/-- The first installation puts every ring at its start (R119, R147). -/
theorem Writer.Sound.first (h : w.Sound none) (new : Image) : (w.installed [] new).Sound (some new) := by
  have hring (n : Fin 16) : (w.installed [] new).rings[n] = (w.rings[n]).installed [] new n := tabulate_get _ _ _
  refine ⟨fun n => ?_, fun hstep => ?_⟩
  · rw [hring]
    exact (h.rings n).installed fun hkind => absurd (Image.kind_nil n) hkind
  · obtain ⟨m, _, _, hm, -⟩ := h.inHand hstep
    cases hm

/-! ### Every step -/

/-- No setup is in force while the part is FETCHING or UNSET (R147). -/
def Setup.Idle (u : Setup) : Prop := u.part = .fetching ∨ u.part = .unset → u.active = none

theorem Setup.idle_kept : Setup.Kept Setup.Idle where
  marks _ _ _ _ h := h
  start _ _ := by rintro (hp | hp) <;> cases hp

theorem Effect.idle {s u : State} (e : Effect s u) (h : s.setup.Idle) : u.setup.Idle := by
  have hK := Setup.idle_kept
  rcases e.setup with hsame | ⟨r, b, rfl⟩ | rfl | rfl | rfl | ⟨hp, a, rfl⟩ | ⟨hp, rfl⟩ | ⟨hp, rfl⟩ | ⟨hp, rfl⟩ |
    ⟨hp, -, rfl⟩
  · rwa [hsame]
  · exact fun _ => rfl
  · unfold State.capture
    split <;> exact h
  · exact hK.takeGeneration s h
  · exact hK.takeCommand s h
  · cases a <;> exact fun _ => h (.inl hp)
  · exact hK.completeFetch s (fun _ => h (.inl hp)) fun _ => by rintro (hp | hp) <;> cases hp
  · refine hK.completeValidation s (fun hrest => ?_) fun _ => by rintro (hp | hp) <;> cases hp
    show s.setup.active = none
    unfold Setup.resting at hrest
    split at hrest
    · rcases hrest with hp | hp <;> cases hp
    · next hnone => simpa using hnone
  · rintro (hp | hp) <;> cases hp
  · exact hK.install s (by rintro (hp | hp) <;> cases hp)

/-- The port carries a record or index write for a record in hand alone (R113, R114). -/
def State.PortInHand (s : State) : Prop :=
  s.pass.port.isRecordWrite = true ∨ s.pass.port.isIndexWrite = true → s.writer.step.isSome = true

theorem ringSpace_iff (s : State) : RingSpace s ↔ s.setup.Idle ∧ s.writer.Sound s.setup.active ∧ s.PortInHand := by
  constructor
  · rintro ⟨hspace, hidle, hhand, hport, howed⟩
    exact ⟨hidle, ⟨fun n => ⟨fun m hm hkind => hspace m hm n hkind, howed n⟩, hhand⟩, hport⟩
  · rintro ⟨hidle, ⟨hrings, hhand⟩, hport⟩
    exact ⟨fun m hm n hkind => (hrings n).space m hm hkind, hidle, hhand, hport, fun n => (hrings n).owed⟩

/-- The port left or freed, with what is in hand still in hand. -/
theorem State.PortInHand.same {s t : State} (h : s.PortInHand) (hw : t.writer.step = s.writer.step)
    (hp : t.pass.port = s.pass.port ∨ t.pass.port = .free) : t.PortInHand := by
  unfold State.PortInHand
  rcases hp with hp | hp <;> rw [hp]
  · rw [hw]
    exact h
  · nofun

theorem State.PortInHand.of_free {s : State} (h : s.pass.port = .free) : s.PortInHand := by
  unfold State.PortInHand
  rw [h]
  nofun

/-- The memory path's part of the ring space, apart from the part state. -/
def State.RingsSound (s : State) : Prop := s.writer.Sound s.setup.active ∧ s.PortInHand

theorem State.LeavesPath.ringsSound {s u : State} (g : s.LeavesPath u) (h : s.RingsSound) : u.RingsSound := by
  refine ⟨?_, h.2.same (congrArg Writer.step g.writer) g.port⟩
  rw [g.writer, g.active]
  exact h.1

theorem State.Granted.ringsSound {s u : State} (g : s.Granted u) (h : s.RingsSound) : u.RingsSound := by
  obtain ⟨hsound, hinhand⟩ := h
  obtain ⟨hsetup, hwriter, hport, -, -⟩ := g
  have hstep : u.writer.step = s.writer.step := by
    rcases hwriter with ⟨extra, hw, -⟩ | ⟨n, -, hw⟩
    · rw [hw]
    · rw [hw]
      rfl
  refine ⟨?_, ?_⟩
  · rw [hsetup]
    rcases hwriter with happended | ⟨n, howed, hw⟩
    · exact hsound.appended happended
    · rw [hw]
      exact hsound.setRing ((hsound.rings n).granted howed) rfl
  · rcases hport with hport | hport
    · exact hinhand.same hstep (.inl hport)
    · unfold State.PortInHand
      rw [hstep]
      exact hport

theorem State.handOverHead_step (s : State) : s.handOverHead.writer.step = s.writer.step := by
  unfold State.handOverHead
  split
  · rfl
  · dsimp only
    split <;> rfl

theorem Effect.ringsSound {s u : State} (e : Effect s u) (hidle : s.setup.Idle) (h : s.RingsSound) :
    u.RingsSound := by
  rcases e.path with hleaves | hpath
  · exact hleaves.ringsSound h
  obtain ⟨hsound, hport⟩ := h
  cases hpath with
  | reset r b =>
    have hcleared (n : Fin 16) : Writer.hardReset.rings[n] = .cleared := by simp [Writer.hardReset]
    refine ⟨⟨fun n => ?_, nofun⟩, ?_⟩
    · show (Writer.hardReset.rings[n]).Sound none n
      rw [hcleared]
      exact .cleared
    · unfold State.PortInHand
      show s.pass.port.orphaned.isRecordWrite = true ∨ s.pass.port.orphaned.isIndexWrite = true → _
      cases s.pass.port <;> nofun
  | arbitrate =>
    obtain ⟨n, -, hgranted⟩ := s.arbitrate_granted
    exact hgranted.ringsSound ⟨hsound, hport⟩
  | consumer =>
    obtain ⟨rs, hleaves, -⟩ := s.takeConsumer_path
    refine ⟨?_, hport.same (congrArg Writer.step hleaves.writer :) hleaves.port⟩
    rw [hleaves.active]
    exact State.takeConsumer_sound hsound
  | handOver hroom =>
    refine ⟨?_, hport.same s.handOverHead_step (.inl (by simp))⟩
    rw [State.handOverHead_setup]
    exact hsound.appended (State.handOverHead_appended hroom)
  | missHandOver hroom =>
    unfold State.handOverMiss
    split
    · exact ⟨hsound, hport⟩
    · exact ⟨hsound.appended (.one hroom _), hport⟩
  | takeIntoHand hstep howed =>
    refine ⟨?_, fun hp => absurd (hport (by simpa using hp)) (by simp [hstep])⟩
    rw [State.takeHead_setup]
    exact State.takeHead_sound hsound howed
  | recordAnswer answer hp =>
    have hstep := hport (.inl hp)
    rcases s.answerRecordWrite_cases answer with ⟨w, e⟩ | e <;> rw [e]
    · exact ⟨hsound.step hstep w, .of_free rfl⟩
    · refine ⟨?_, .of_free (by simp [State.freePort])⟩
      rw [State.discardRecord_setup]
      exact State.discardRecord_sound (s := s.freePort) hsound hstep
  | indexAnswer answer hp =>
    have hstep := hport (.inr hp)
    rcases s.answerIndexWrite_cases answer with ⟨w, e⟩ | e | e <;> rw [e]
    · exact ⟨hsound.step hstep w, .of_free rfl⟩
    · refine ⟨?_, .of_free (by simp [State.freePort])⟩
      rw [State.publishRecord_setup]
      exact State.publishRecord_sound (s := s.freePort) hsound hstep
    · refine ⟨?_, .of_free (by simp [State.freePort])⟩
      rw [State.discardRecord_setup]
      exact State.discardRecord_sound (s := s.freePort) hsound hstep
  | fetchEnd hp =>
    have hnone := hidle (.inl hp)
    rcases s.completeFetch_path with hleaves | hleaves
    · exact hleaves.ringsSound ⟨hsound, hport⟩
    · refine hleaves.ringsSound ⟨?_, hport⟩
      rw [hnone] at hsound
      exact hsound.first s.candidateImage
  | installed hp hclear =>
    exact s.install_path.ringsSound ⟨State.withInstalled_sound hsound hp hclear, hport⟩

theorem Effect.ringSpace {s u : State} (e : Effect s u) (h : RingSpace s) : RingSpace u := by
  rw [ringSpace_iff] at h ⊢
  obtain ⟨hidle, hrings⟩ := h
  exact ⟨e.idle hidle, e.ringsSound hidle hrings⟩

/-! ### The three invariants -/

theorem countBounds_iff (s : State) :
    CountBounds s ↔ s.books.Within ∧ s.tally.losses ≤ 7 ∧ s.writer.Counts :=
  ⟨fun ⟨hpulses, hlosses, halerts, hrings, hmeters⟩ => ⟨⟨hpulses, halerts, hmeters⟩, hlosses, hrings⟩,
   fun ⟨⟨hpulses, halerts, hmeters⟩, hlosses, hrings⟩ => ⟨hpulses, hlosses, halerts, hrings, hmeters⟩⟩

theorem Effect.countBounds {s u : State} (e : Effect s u) (h : CountBounds s) : CountBounds u := by
  rw [countBounds_iff] at h ⊢
  obtain ⟨hbooks, hlosses, hrings⟩ := h
  exact ⟨Books.within_kept.effect e hbooks, Tally.losses_kept.effect e hlosses, e.ringCounts hrings⟩

theorem Effect.queueBounds {s u : State} (e : Effect s u) (h : QueueBounds s) : QueueBounds u := by
  obtain ⟨hintake, hwriter, htally, hmisses, hrun⟩ := h
  obtain ⟨hintake', hwriter', hrun'⟩ := e.bounded ⟨hintake, hwriter, hrun⟩
  exact ⟨hintake', hwriter', Books.tallyQueue_kept.effect e htally, Tally.misses_kept.effect e hmisses, hrun'⟩

/-- Settles O56, by what each effect does to the queues, the counts and the rings. -/
theorem queueAndCountBoundsAreKeptByEveryStep : Obligations.QueueAndCountBoundsAreKeptByEveryStep := by
  refine ⟨kept_by_every_step (fun _ _ h => h) (fun s h => ?fineQueues) (fun _ h => h) fun _ _ h e => e.queueBounds h,
    kept_by_every_step (fun _ _ h => h) (fun s h => ?fineCounts) (fun s h => ?mirror) fun _ _ h e => e.countBounds h,
    kept_by_every_step (fun _ _ h => h) (fun s h => ?fineSpace) (fun _ h => h) fun _ _ h e => e.ringSpace h⟩
  case mirror =>
    unfold CountBounds
    rw [requestMirror_counters]
    exact h
  all_goals
    unfold State.fineInterval
    split <;> exact h

end Sys2Proof.Machine
end

section
/-! SUPPORT. Time: when a clock step can arise, the TICK pulse, the advance of the clock and the expiries (R27, R82,
R85, R179). -/

namespace Sys2Proof.Machine

/-! ### When a step can arise -/

theorem State.steady_iff (s : State) : s.steady = true ↔ s.inReset = false ∧ s.pass.notice = none := by
  simp [State.steady]

theorem LineUnit.boundaryReached_eq_true_iff (u : LineUnit) (h : Fin 16) :
    u.boundaryReached h = true ↔ ∃ b, u.bounds[h] = some b ∧ b.bin ≤ u.clock.toNat := by
  unfold LineUnit.boundaryReached
  cases u.bounds[h] <;> simp

theorem LineUnit.dueHead_eq_none_iff (u : LineUnit) : u.dueHead = none ↔
    ∀ (h : Fin 16) (b : Bound), u.bounds[h] = some b → u.clock.toNat < b.bin := by
  simp only [LineUnit.dueHead, List.find?_eq_none, LineUnit.boundaryReached_eq_true_iff, not_exists, not_and,
    Nat.not_le]
  exact ⟨fun hnone h => hnone h (List.mem_finRange h), fun hlow h _ => hlow h⟩

/-- Some entry of a table meets a test. -/
theorem toList_any_eq_true_iff {α : Type} {n : Nat} (v : Vector α n) (p : α → Bool) :
    v.toList.any p = true ↔ ∃ i : Fin n, p v[i] = true := by
  simp only [List.any_eq_true, Vector.mem_toList_iff, Vector.mem_iff_getElem]
  constructor
  · rintro ⟨x, ⟨i, hi, rfl⟩, hp⟩
    exact ⟨⟨i, hi⟩, hp⟩
  · rintro ⟨i, hp⟩
    exact ⟨_, ⟨i, i.isLt, rfl⟩, hp⟩

theorem toList_any_eq_false_iff {α : Type} {n : Nat} (v : Vector α n) (p : α → Bool) :
    v.toList.any p = false ↔ ∀ i : Fin n, p v[i] = false := by
  rw [← Bool.not_eq_true, toList_any_eq_true_iff]
  simp

theorem State.expiryDue_eq_false_iff (s : State) : s.expiryDue = false ↔
    (∀ n : Fin 16, (s.lines.lines[n]).timer ≠ some 0) ∧
    (∀ e : Fin 256, (s.channels.meters[e]).timer ≠ some 0) ∧ s.alerts.reportTimer ≠ some 0 := by
  simp only [State.expiryDue, Bool.or_eq_false_iff, toList_any_eq_false_iff, beq_eq_false_iff_ne, and_assoc]

/-! ### The TICK pulse (R27, R82) -/

/-- Settles O8: the pulse's effect, its windows the lowered ones. -/
theorem tickPulseCountsAndLowersAssemblyTimers : Obligations.TickPulseCountsAndLowersAssemblyTimers := by
  unfold Obligations.TickPulseCountsAndLowersAssemblyTimers
  intro s hreset
  have htick : s.tick = { s with
      lines := { s.lines with
        pulses := if s.lines.pulses + 1 < 1000 then s.lines.pulses + 1 else 0,
        advancesDue := if s.lines.pulses + 1 < 1000 then s.lines.advancesDue else s.lines.advancesDue + 1 },
      intake := s.tick.intake } := by
    by_cases hlow : s.lines.pulses + 1 < 1000
    · have hcount : ¬ 999 ≤ s.lines.pulses := by omega
      simp only [State.tick, hcount, hlow, decide_false, Bool.false_eq_true, if_true, if_false]
    · have hcount : 999 ≤ s.lines.pulses := by omega
      simp only [State.tick, hcount, hlow, decide_true, if_true, if_false]
  obtain ⟨m, hexec⟩ := stepWhen_of_eq (f := State.tick) (by simp [hreset] : (!s.inReset) = true) htick
  refine ⟨m, s.tick.intake.windows, hexec, fun i => ?_⟩
  have hwindow : s.tick.intake.windows[i] =
      { s.intake.windows[i] with timer := lowered (s.intake.windows[i]).timer } := tabulate_get _ _ _
  rw [hwindow, lowered_eq]

/-! ### The advance of the clock (R82) -/

theorem exec_clockAdvance {s : State} (hsteady : s.steady = true) (hdue : 0 < s.lines.advancesDue)
    (hcloses : s.closesTaken = true) (hexpiry : s.expiryDue = false) :
    exec .clockAdvance s = .next s.advance.requestMirror :=
  stepWhen_can _ s (by simp [hsteady, hdue, hcloses, hexpiry])

/-- The boundaries stand, unless the clock wraps to 0. -/
theorem State.advance_lines (s : State) : s.advance.lines = { s.lines with
    clock := s.lines.clock + 1, advancesDue := s.lines.advancesDue - 1,
    lines := tabulate 16 (fun n => (s.lines.lines[n]).second.1),
    bounds := if s.lines.clock + 1 = 0 then tabulate 16 (fun h =>
      if s.cfg.isHead h then some (s.cfg.boundAt h (s.lines.clock + 1).toNat) else none) else s.lines.bounds } := by
  unfold State.advance
  dsimp only
  split
  · rfl
  · rfl

theorem State.advance_line (s : State) (n : Fin 16) : s.advance.lines.lines[n] = (s.lines.lines[n]).second.1 := by
  rw [State.advance_lines]
  exact tabulate_get _ _ _

theorem State.advance_has (s : State) (b : AlertBit) : s.advance.alerts.has b =
    (s.alerts.has b || (s.lines.lines.toList.any (fun l => l.second.2) && decide (b = .saturation))) :=
  Alerts.has_latchIf _ _ _ _

theorem Line.second_of_changeover {l : Line} (h : l.state = .changeover) : l.second.1 = { l with
    timer := l.timer.map (fun k => k - 1),
    job := { l.job with
      changeoverSeconds := min (l.job.changeoverSeconds + 1) 4294967295,
      saturated := l.job.saturated || decide (4294967295 < l.job.changeoverSeconds + 1) } } := by
  rw [← lowered_eq]
  simp [Line.second, h, satOver, satAdd]

theorem Line.second_of_stopped {l : Line} (h : l.state = .stopped) : l.second.1 = { l with
    bin := { l.bin with
      stoppedSeconds := min (l.bin.stoppedSeconds + 1) 4294967295,
      flags := { l.bin.flags with
        saturated := l.bin.flags.saturated || decide (4294967295 < l.bin.stoppedSeconds + 1) } },
    summarySaturation := l.summarySaturation || decide (4294967295 < l.bin.stoppedSeconds + 1) } := by
  simp [Line.second, h, satOver, satAdd]

theorem Line.second_of_resting {l : Line} (h : l.state = .running ∨ l.state = .idle) : l.second.1 = l := by
  unfold Line.second
  rcases h with h | h <;> rw [h]

/-- A line's second latches SATURATION where the count that it raises is full. -/
theorem Line.second_saturates_iff (l : Line) : l.second.2 = true ↔
    (l.state = .changeover ∧ 4294967295 < l.job.changeoverSeconds + 1) ∨
    (l.state = .stopped ∧ 4294967295 < l.bin.stoppedSeconds + 1) := by
  unfold Line.second
  cases l.state <;> simp [satOver]

/-- Settles O9, from the advance's equation by unit. -/
theorem clockAdvanceAddsOneSecond : Obligations.ClockAdvanceAddsOneSecond := by
  unfold Obligations.ClockAdvanceAddsOneSecond
  refine ⟨fun s => ⟨s.steady_iff, ?_, s.expiryDue_eq_false_iff⟩, fun s hsteady hdue hcloses hexpiry => ?_⟩
  · rw [State.closesTaken_iff, LineUnit.dueHead_eq_none_iff]
  refine ⟨_, exec_clockAdvance hsteady hdue hcloses hexpiry, ?_⟩
  have hlines : s.advance.requestMirror.lines = s.advance.lines := rfl
  rw [hlines]
  refine ⟨(congrArg LineUnit.clock s.advance_lines :), (congrArg LineUnit.advancesDue s.advance_lines :),
    (congrArg LineUnit.pulses s.advance_lines :), (congrArg LineUnit.handOver s.advance_lines :), fun hclock => ?_,
    fun hclock h => ?_, fun n => ?_, fun e => ?_, rfl, rfl, ?_, fun b hb => ?_, ?_, ?_, ?_, ?_, ?_, rfl, rfl, rfl, rfl,
    rfl, rfl, rfl⟩
  · rw [State.advance_lines] at hclock ⊢
    exact if_neg hclock
  · rw [State.advance_lines] at hclock ⊢
    have hclock' : s.lines.clock + 1 = 0 := hclock
    show (if s.lines.clock + 1 = 0 then _ else _)[h] = _
    rw [if_pos hclock', tabulate_get, hclock']
    rfl
  · rw [State.advance_line]
    exact ⟨Line.second_of_changeover, Line.second_of_stopped, Line.second_of_resting⟩
  · rw [← lowered_eq]
    exact tabulate_get _ _ _
  · rw [requestMirror_reportTimer]
    exact (Alerts.latchIf_reportTimer _ _ _).trans (lowered_eq _)
  · rw [State.requestMirror_has, State.advance_has]
    simp [hb]
  · rw [State.requestMirror_has, State.advance_has]
    simp only [decide_true, Bool.and_true, Bool.or_eq_true, toList_any_eq_true_iff, Line.second_saturates_iff]
  · rw [requestMirror_counters]
    exact Alerts.latchIf_counters _ _ _
  · rw [requestMirror_readHold]
    exact Alerts.latchIf_readHold _ _ _
  · rw [requestMirror_applyResult]
    exact Alerts.latchIf_applyResult _ _ _
  · rw [requestMirror_commandResult]
    exact Alerts.latchIf_commandResult _ _ _

/-! ### The expiries (R27, R87, R179) -/

theorem Alerts.transfer_counters (which : Fin 4 → Bool) (a : Alerts) (i : Fin 4) : (a.transfer which).counters[i] =
    if which i then { count := 0, latch := (a.counters[i]).count } else a.counters[i] := tabulate_get _ _ _

/-- A transfer makes the counters' group owed where a latched copy changes (R170). -/
theorem Alerts.transfer_owedCounters_iff (which : Fin 4 → Bool) (a : Alerts) :
    (a.transfer which).owed.counters = true ↔ a.owed.counters = true ∨
      ∃ i : Fin 4, ((a.transfer which).counters[i]).latch ≠ (a.counters[i]).latch := by
  have hchanged : (a.transfer which).owed.counters = (a.owed.counters ||
      (List.finRange 4).any (fun i => which i && (a.counters[i]).count != (a.counters[i]).latch)) := rfl
  rw [hchanged, Bool.or_eq_true, List.any_eq_true]
  refine or_congr Iff.rfl (exists_congr fun i => ?_)
  rw [Alerts.transfer_counters]
  cases hw : which i <;> simp

/-- Settles O10: the three expiries by their effects. -/
theorem timerExpiriesActOnTheirOwners : Obligations.TimerExpiriesActOnTheirOwners := by
  unfold Obligations.TimerExpiriesActOnTheirOwners
  refine ⟨fun w s hsteady htimer hpartial => ?_, fun n s hsteady hstate htimer => ?_, fun s hsteady htimer => ?_⟩
  · exact stepWhen_of_eq (f := fun s => s.withDesk ((s.desk.emptyBuffer w).report s.cfg .stray)) (s := s)
      (by simp [hsteady, htimer, hpartial, -Fin.getElem_fin]) rfl
  · show ∃ m, execChangeoverTimerExpiry n s = _
    exact stepWhen_of_eq (s := s) (by simp [hsteady, hstate, htimer, -Fin.getElem_fin]) rfl
  · obtain ⟨m, hexec⟩ := stepWhen_of_eq (f := State.expireReport) (s := s) (t := s.expireReport)
      (by simp [hsteady, htimer] : (s.steady && s.alerts.reportTimer == some 0) = true) rfl
    exact ⟨m, (s.alerts.transfer s.cfg.automatic).counters, (s.alerts.transfer s.cfg.automatic).owed.counters, hexec,
      Alerts.transfer_counters _ _, Alerts.transfer_owedCounters_iff _ _⟩

end Sys2Proof.Machine
end

section
/-! SUPPORT. Group close: the boundaries, the members' closes, the snapshots, the hand-over list and the postings
(R84, R90 to R98). -/

namespace Sys2Proof.Machine

/-! ### Boundaries (R84) -/

theorem dvd_nextMultiple (n t : Nat) : n ∣ nextMultiple n t := Nat.dvd_mul_left _ _

theorem lt_nextMultiple {n : Nat} (hn : 0 < n) (t : Nat) : t < nextMultiple n t := by
  rw [nextMultiple, Nat.mul_comm]
  exact Nat.lt_mul_div_succ t hn

/-- No multiple lies between the clock and the next boundary. -/
theorem nextMultiple_le {n t k : Nat} (hk : n ∣ k) (ht : t < k) : nextMultiple n t ≤ k := by
  obtain ⟨q, rfl⟩ := hk
  rw [nextMultiple, Nat.mul_comm]
  exact Nat.mul_le_mul_left n (Nat.div_lt_of_lt_mul ht)

/-- The lowest-numbered head whose boundary is reached is the one that closes (R90). -/
theorem LineUnit.dueHead_eq_some {u : LineUnit} {h : Fin 16} {b : Bound} (hb : u.bounds[h] = some b)
    (hdue : b.bin ≤ u.clock.toNat)
    (hlower : ∀ k : Fin 16, k < h → ∀ c, u.bounds[k] = some c → u.clock.toNat < c.bin) : u.dueHead = some h := by
  unfold LineUnit.dueHead allLines
  rw [← Fin.find?_eq_find?_finRange, Fin.find?_eq_some_iff]
  refine ⟨(u.boundaryReached_eq_true_iff h).mpr ⟨b, hb, hdue⟩, fun k hk => ?_⟩
  rw [← Bool.not_eq_true, LineUnit.boundaryReached_eq_true_iff]
  rintro ⟨c, hc, hle⟩
  exact absurd (hlower k hk c hc) (Nat.not_lt.mpr hle)

/-- Settles O12: multiples by division, the head by the search in increasing number. -/
theorem boundaryExpiryClosesTheLowestDueGroup : Obligations.BoundaryExpiryClosesTheLowestDueGroup := by
  unfold Obligations.BoundaryExpiryClosesTheLowestDueGroup
  refine ⟨?_, fun s h b hreset hb hdue hlower => ?_⟩
  · rintro m h now b e rfl rfl hb he
    exact ⟨dvd_nextMultiple _ _, lt_nextMultiple hb _, fun _ => nextMultiple_le, dvd_nextMultiple _ _,
      lt_nextMultiple (Nat.mul_pos hb he) _, fun _ => nextMultiple_le⟩
  · have hhead := LineUnit.dueHead_eq_some hb hdue hlower
    have hepoch : s.lines.epochReached h = decide (b.epoch ≤ s.lines.clock.toNat) := by
      rw [LineUnit.epochReached, hb]
    refine stepWhen_of_eq (f := State.closeDue)
      (t := s.withBooks (s.books.closeGroup s.cfg h (decide (b.epoch ≤ s.lines.clock.toNat))))
      (by simp [hreset, hhead] : (!s.inReset && s.lines.dueHead.isSome) = true) ?_
    rw [State.closeDue, hhead, ← hepoch]

/-! ### One member's close (R91 to R97) -/

/-- The epoch snapshot of a line, before it is merged (R94). -/
def Line.epochSnapshot (kind : LineKind) (l : Line) : EpochSnapshot :=
  { epoch := { l.epoch with
      flags := { l.epoch.flags with saturated := l.epoch.flags.saturated || l.summarySaturation } },
    kind := kind, merged := 0 }

theorem Line.placeBin_eq (b : BinSnapshot) (l : Line) : l.placeBin b =
    ({ l with closing := some (l.closing.elim b (fun w => w.merge b)) },
      l.closing.any (fun w => w.sums.overflows b.sums)) := by
  unfold Line.placeBin
  cases l.closing <;> rfl

theorem Line.closeEpoch_eq (kind : LineKind) (now : Nat) (l : Line) : l.closeEpoch kind now =
    ({ l with
      epoch := .opened now, summarySaturation := false,
      epochSnap := some (l.epochSnap.elim (l.epochSnapshot kind) (fun w => w.merge (l.epochSnapshot kind))) },
      l.epochSnap.any (fun w => w.epoch.sums.overflows (l.epochSnapshot kind).epoch.sums)) := by
  unfold Line.closeEpoch
  cases l.epochSnap <;> rfl

/-- What a member's close adds: the closed bin to the epoch, and the saturations to the summary flag (R94, R96). -/
def Line.withClosedBin (kind : LineKind) (now stale share : Nat) (l : Line) : Line :=
  { l with
    epoch := l.epoch.addBin (l.closedBin kind now stale share),
    summarySaturation := l.summarySaturation || satOver (top 32) 0 share ||
      l.epoch.sums.overflows (l.closedBin kind now stale share).sums }

/-- A member's line after the close, field by field, and the additions that saturated in it. -/
theorem Line.close_eq (kind : LineKind) (now stale share : Nat) (we : Bool) (l : Line) :
    let b := l.closedBin kind now stale share
    let l' := l.withClosedBin kind now stale share
    l.close kind now stale share we =
    ({ l with
      bin := .opened now { saturated := false, stopped := l.state == .stopped, changeover := l.state == .changeover },
      closing := some (l.closing.elim b (fun w => w.merge b)),
      pulledResidue := (l.pulledResidue + l.bin.pulledGrams) % 1000,
      packedResidue := (l.packedResidue + l.bin.packedGrams) % 1000,
      job := if kind = .forming then (l.job.addShare share).1 else l.job,
      epoch := if we then .opened now else l'.epoch,
      summarySaturation := if we then false else l'.summarySaturation,
      epochSnap := if we then some (l.epochSnap.elim (l'.epochSnapshot kind)
        (fun w => w.merge (l'.epochSnapshot kind))) else l.epochSnap },
     satOver (top 32) 0 share || l.epoch.sums.overflows b.sums ||
     l.closing.any (fun w => w.sums.overflows b.sums) ||
     (decide (kind = .forming) && (l.job.addShare share).2) ||
     (we && l.epochSnap.any (fun w => w.epoch.sums.overflows (l'.epochSnapshot kind).epoch.sums))) := by
  intro b l'
  unfold Line.close
  dsimp only
  rw [Line.placeBin_eq]
  by_cases hkind : kind = .forming
  · cases we
    · simp [hkind, Line.reopenBin, b, l', Line.withClosedBin]
    · simp [hkind, Line.reopenBin, Line.closeEpoch_eq, Line.epochSnapshot, b, l', Line.withClosedBin]
  · cases we
    · simp [hkind, Line.reopenBin, b, l', Line.withClosedBin]
    · simp [hkind, Line.reopenBin, Line.closeEpoch_eq, Line.epochSnapshot, b, l', Line.withClosedBin]

/-! ### The group close, unit by unit -/

theorem Books.closeGroup_line (m : Image) (h : Fin 16) (we : Bool) (x : Books) (n : Fin 16) :
    (x.closeGroup m h we).line n = if n ∈ m.members h then (x.closedLine m h we n).1 else x.line n := by
  have hline : (x.closeGroup m h we).line n =
      if (m.members h).contains n then (x.closedLine m h we n).1 else x.line n := tabulate_get _ _ _
  rw [hline]
  simp

theorem Books.closeGroup_meter (m : Image) (h : Fin 16) (we : Bool) (x : Books) (e : Fin 256) :
    (x.closeGroup m h we).channels.meters[e] = { x.channels.meters[e] with
      staleInBin := if m.channelEnabled e = true ∧ (m.channel e).line ∈ m.members h
        then (x.channels.meters[e]).state == .stale else (x.channels.meters[e]).staleInBin } := by
  have hmeter : (x.closeGroup m h we).channels.meters[e] =
      if m.channelEnabled e && (m.members h).contains (m.channel e).line then
        { x.channels.meters[e] with staleInBin := (x.channels.meters[e]).state == .stale }
      else x.channels.meters[e] := tabulate_get _ _ _
  rw [hmeter]
  simp only [Bool.and_eq_true, List.contains_iff_mem]
  split <;> rfl

theorem Image.members_pairwise (m : Image) (h : Fin 16) : (m.members h).Pairwise (fun a b => a < b) := by
  unfold Image.members
  split
  · exact (List.pairwise_lt_finRange 16).filter _
  · exact .nil

/-- The stale count of a line, as the entries that it counts (R70). -/
theorem Channels.staleCount_eq (m : Image) (n : Fin 16) (c : Channels) : c.staleCount m n =
    ((List.finRange 256).filter (fun e => (c.meters[e]).staleInBin && m.channelEnabled e &&
      decide ((m.channel e).line = n))).length := rfl

/-- Settles O13, unit by unit, each member by its close. -/
theorem groupCloseReopensMembersAndPostsUpdates : Obligations.GroupCloseReopensMembersAndPostsUpdates := by
  unfold Obligations.GroupCloseReopensMembersAndPostsUpdates
  intro m h we x y now top32 plus passes joint fresh summed summary ended
  have hfresh (n : Fin 16) :
      (x.line n).closedBin (m.kind n) now (x.channels.staleCount m n) (x.shareIn m h n) = fresh n := by
    simp [Line.closedBin, Channels.staleCount_eq, satAdd, satOver, fresh, top32, Line.closingPulledKg,
      Line.closingPackedKg]
  have hshare (n : Fin 16) : satOver (top 32) 0 (x.shareIn m h n) = decide (top32 < x.shareIn m h n) := by
    simp [satOver, top32]
  have hclosed (n : Fin 16) : (x.line n).withClosedBin (m.kind n) now (x.channels.staleCount m n) (x.shareIn m h n) =
      { x.line n with epoch := summed n, summarySaturation := summary n } := by
    rw [Line.withClosedBin, hfresh, hshare]
    rfl
  have hended (n : Fin 16) : (({ x.line n with epoch := summed n, summarySaturation := summary n } : Line).epochSnapshot
      (m.kind n)) = { epoch := ended n, kind := m.kind n, merged := 0 } := rfl
  have hline (n : Fin 16) := Line.close_eq (m.kind n) now (x.channels.staleCount m n) (x.shareIn m h n) we (x.line n)
  simp only [hfresh, hclosed, hended, hshare] at hline
  refine ⟨fun n hn => ?_, fun n hn => ?_, m.members_pairwise h, ?_, ?_, rfl, rfl, ?_, fun k hk => ?_, fun e => ?_⟩
  · exact (Books.closeGroup_line m h we x n).trans (if_neg hn)
  · have hy : y.line n = _ := (Books.closeGroup_line m h we x n).trans (if_pos hn)
    rw [Books.closedLine, hline] at hy
    rw [hy]
    refine ⟨rfl, fun hnone => ?_, fun w hw => ?_, rfl, rfl, rfl, rfl, rfl, rfl, rfl, rfl, rfl, fun hwe => ?_,
      fun hwe => ?_⟩
    · simp only [hnone, Option.elim_none]
    · simp only [hw, Option.elim_some]
      rfl
    · subst hwe
      refine ⟨rfl, rfl, fun hnone => ?_, fun w hw => ?_⟩
      · simp only [hnone, Option.elim_none, if_true]
      · simp only [hw, Option.elim_some, if_true]
        rfl
    · subst hwe
      exact ⟨rfl, rfl, rfl⟩
  · have hjoin : x.joining (m.members h) we = (m.members h).flatMap (fun n =>
        (if (x.line n).closing = none then [(SnapshotKind.bin, n)] else []) ++
        (if we = true ∧ (x.line n).epochSnap = none then [(SnapshotKind.epoch, n)] else [])) := by
      simp only [Books.joining, Option.isNone_iff_eq_none, Bool.and_eq_true]
    rw [← hjoin]
    rfl
  · intro posted saturates
    have hsat : (m.members h).any (fun n => (x.closedLine m h we n).2) = (m.members h).any saturates := by
      congr 1
      funext n
      rw [Books.closedLine, hline]
      rfl
    show { posted with alerts := posted.alerts.latchIf _ .saturation } = _
    rw [hsat]
    rfl
  · exact set_get_self _ _ _
  · exact set_get_other _ _ _ _ hk
  · exact Books.closeGroup_meter m h we x e

end Sys2Proof.Machine
end

section
/-! SUPPORT. The sharing of a furnace's bin energy among its children (R92). -/

namespace Sys2Proof.Machine

/-! ### The child that takes the residue -/

/-- The largest child has the largest mass, and the lowest line among equals. -/
theorem largestChild_spec {cs : List (Fin 16 × Nat)} (hcs : cs.Pairwise (fun a b => a.1 < b.1)) (hne : cs ≠ []) :
    ∃ best ∈ cs, largestChild cs = some best ∧ (∀ c ∈ cs, c.2 ≤ best.2) ∧
      ∀ c ∈ cs, c.2 = best.2 → best.1 ≤ c.1 := by
  induction cs with
  | nil => exact absurd rfl hne
  | cons c rest ih =>
    obtain ⟨hfirst, hrest⟩ := List.pairwise_cons.mp hcs
    by_cases hempty : rest = []
    · subst hempty
      exact ⟨c, by simp, rfl, by simp, by simp⟩
    · obtain ⟨best, hmem, hlargest, hmass, hline⟩ := ih hrest hempty
      rw [largestChild, hlargest]
      dsimp only
      by_cases hless : c.2 < best.2
      · refine ⟨best, List.mem_cons_of_mem _ hmem, if_pos hless, ?_, ?_⟩
        · simpa [hless.le] using hmass
        · simpa [hless.ne] using hline
      · have hge : best.2 ≤ c.2 := Nat.le_of_not_lt hless
        refine ⟨c, List.mem_cons_self, if_neg hless, ?_, ?_⟩
        · simpa using fun a b hab => (hmass (a, b) hab).trans hge
        · simpa using fun a b hab _ => (hfirst (a, b) hab).le

/-! ### The sum of the floors -/

theorem sum_floors_mul_le (k n : Nat) (cs : List (Fin 16 × Nat)) :
    (cs.map (fun c => k * c.2 / n)).sum * n ≤ k * (cs.map Prod.snd).sum := by
  induction cs with
  | nil => simp
  | cons c rest ih =>
    simp only [List.map_cons, List.sum_cons, Nat.add_mul, Nat.mul_add]
    exact Nat.add_le_add (Nat.div_mul_le_self _ _) ih

/-- The floors sum to no more than the whole. -/
theorem sum_floors_le (energy : Nat) {cs : List (Fin 16 × Nat)} (h : 0 < (cs.map Prod.snd).sum) :
    (cs.map (fun c => energy * c.2 / (cs.map Prod.snd).sum)).sum ≤ energy :=
  Nat.le_of_mul_le_mul_right (sum_floors_mul_le energy _ cs) h

/-- An amount given to one of several lines. -/
theorem sum_map_given (r : Nat) {cs : List (Fin 16 × Nat)} (hcs : cs.Pairwise (fun a b => a.1 < b.1))
    {best : Fin 16 × Nat} (hbest : best ∈ cs) : (cs.map (fun c => if c.1 = best.1 then r else 0)).sum = r := by
  induction cs with
  | nil => cases hbest
  | cons c rest ih =>
    obtain ⟨hfirst, hrest⟩ := List.pairwise_cons.mp hcs
    rw [List.map_cons, List.sum_cons]
    rcases List.mem_cons.mp hbest with rfl | hmem
    · have hzero : (rest.map (fun c => if c.1 = best.1 then r else 0)).sum = 0 := by
        refine List.sum_eq_zero fun x hx => ?_
        obtain ⟨c, hc, rfl⟩ := List.mem_map.mp hx
        exact if_neg (hfirst c hc).ne'
      rw [if_pos rfl, hzero, Nat.add_zero]
    · rw [if_neg (hfirst best hmem).ne, Nat.zero_add]
      exact ih hrest hmem

/-! ### The shares -/

theorem apportion_of_no_mass (energy : Nat) {cs : List (Fin 16 × Nat)} (h : (cs.map Prod.snd).sum = 0) :
    apportion energy cs = (cs.map (fun c => (c.1, 0)), energy) := if_pos h

/-- With mass, each child has its floor, and the largest the residue too. -/
theorem apportion_of_mass (energy : Nat) {cs : List (Fin 16 × Nat)} (h : 0 < (cs.map Prod.snd).sum)
    {best : Fin 16 × Nat} (hbest : largestChild cs = some best) : apportion energy cs =
      (cs.map (fun c => (c.1, energy * c.2 / (cs.map Prod.snd).sum + if c.1 = best.1 then
        energy - (cs.map (fun d => energy * d.2 / (cs.map Prod.snd).sum)).sum else 0)), 0) := by
  unfold apportion
  dsimp only
  rw [if_neg h.ne', hbest, List.map_map, List.map_map]
  refine Prod.ext (List.map_congr_left fun c _ => Prod.ext rfl ?_) rfl
  show (if some best.1 = some c.1 then _ else _) = _
  by_cases hc : c.1 = best.1
  · rw [if_pos (congrArg some hc.symm), if_pos hc]
    rfl
  · rw [if_neg (fun he => hc (Option.some.inj he).symm), if_neg hc]
    rfl

theorem apportion_sum (energy : Nat) {cs : List (Fin 16 × Nat)} (hcs : cs.Pairwise (fun a b => a.1 < b.1)) :
    ((apportion energy cs).1.map Prod.snd).sum + (apportion energy cs).2 = energy := by
  by_cases hmass : (cs.map Prod.snd).sum = 0
  · have hzero : (cs.map (fun _ => 0)).sum = 0 := by simp
    rw [apportion_of_no_mass energy hmass, List.map_map]
    exact (congrArg (· + energy) hzero).trans (Nat.zero_add energy)
  · have hpos := Nat.pos_of_ne_zero hmass
    obtain ⟨best, hbest, hlargest, -⟩ := largestChild_spec hcs (by rintro rfl; exact hmass rfl)
    rw [apportion_of_mass energy hpos hlargest, List.map_map]
    show (cs.map (fun c => energy * c.2 / _ + if c.1 = best.1 then _ else 0)).sum + 0 = energy
    rw [List.sum_map_add, sum_map_given _ hcs hbest, Nat.add_zero]
    exact Nat.add_sub_of_le (sum_floors_le energy hpos)

theorem apportion_lines (energy : Nat) (cs : List (Fin 16 × Nat)) :
    (apportion energy cs).1.map Prod.fst = cs.map Prod.fst := by
  unfold apportion
  dsimp only
  split
  · simp
  · simp

/-- The share found for a line is its entry in the list. -/
theorem shareOf_mem {shares : List (Fin 16 × Nat)} {n : Fin 16} (h : n ∈ shares.map Prod.fst) :
    (n, shareOf shares n) ∈ shares := by
  obtain ⟨c, hc, rfl⟩ := List.mem_map.mp h
  cases hfind : shares.find? (fun d => d.1 == c.1) with
  | none => simpa using List.find?_eq_none.mp hfind c hc
  | some d =>
    have hline : d.1 = c.1 := by simpa using List.find?_some hfind
    rw [shareOf, hfind, ← hline]
    exact List.mem_of_find?_eq_some hfind

/-! ### The children of a group -/

theorem Image.mem_members_iff {m : Image} {h n : Fin 16} (hhead : m.isHead h = true) :
    n ∈ m.members h ↔ n = h ∨ m.parent n = some h := by
  simp [Image.members, hhead, allLines]

theorem Image.isHead_of_furnace {m : Image} {h : Fin 16} (hkind : m.kind h = .furnace) : m.isHead h = true := by
  simp [Image.isHead, hkind]

/-- Settles O14: the shares by the floors and the largest child, the group's by its members. -/
theorem apportionmentSharesTheWholeEnergy : Obligations.ApportionmentSharesTheWholeEnergy := by
  unfold Obligations.ApportionmentSharesTheWholeEnergy
  refine ⟨?_, fun m h n x hkind => ?_, ?_⟩
  · intro energy cs hcs total r
    refine ⟨fun hmass => ?_, fun hmass => ?_, apportion_sum energy hcs⟩
    · have hr := apportion_of_no_mass energy hmass
      exact ⟨congrArg Prod.snd hr, congrArg Prod.fst hr⟩
    · obtain ⟨best, hbest, hlargest, hmost, hlowest⟩ :=
        largestChild_spec hcs (by rintro rfl; exact absurd hmass (Nat.lt_irrefl 0))
      have hr := apportion_of_mass energy hmass hlargest
      exact ⟨congrArg Prod.snd hr, best, hbest, hmost, hlowest, congrArg Prod.fst hr⟩
  · simp [Books.shareIn, Books.apportionment, hkind, shareOf]
  · intro m h x hkind cs r
    have hchildren : (m.members h).filter (fun n => decide (n ≠ h)) = (m.members h).filter (fun n => n != h) := by
      congr 1
      funext n
      exact Bool.eq_iff_iff.mpr (by simp)
    have hshares : x.apportionment m h = r := by
      simp only [r, cs, hchildren]
      exact if_pos hkind
    have hhead := Image.isHead_of_furnace hkind
    have hmember (n : Fin 16) : n ∈ cs.map Prod.fst ↔ m.parent n = some h ∧ n ≠ h := by
      simp [cs, Image.mem_members_iff hhead]
      tauto
    refine ⟨?_, ?_, fun n hparent hn => ?_, fun c hc => ?_⟩
    · exact ((m.members_pairwise h).filter _).map _ fun _ _ hlt => hlt
    · rw [Books.shareIn, hshares, if_pos rfl]
    · rw [Books.shareIn, hshares, if_neg hn]
      refine shareOf_mem ?_
      rw [apportion_lines, hmember]
      exact ⟨hparent, hn⟩
    · exact ((hmember c.1).mp (List.mem_map_of_mem hc)).1

end Sys2Proof.Machine
end

section
/-! SUPPORT. Job close, the events of matches and the credits (R49, R50, R85, R88, R89, R100, R101). -/

namespace Sys2Proof.Machine

/-! ### Job close (R101) -/

theorem Books.setLine_line_self (n : Fin 16) (l : Line) (x : Books) : (x.setLine n l).line n = l :=
  set_get_self _ _ _

theorem Books.closeJob_line (n : Fin 16) (code : Nat) (x : Books) : (x.closeJob n code).line n = { x.line n with
    job := (x.line n).job.reopened code x.lines.clock.toNat,
    jobSnap := some ((x.line n).jobSnap.elim ((x.line n).job.snapshot x.lines.clock.toNat)
      (fun w => w.merge ((x.line n).job.snapshot x.lines.clock.toNat))) } := by
  have hline : (x.closeJob n code).line n = { x.line n with
      job := (x.line n).job.reopened code x.lines.clock.toNat,
      jobSnap := some (match (x.line n).jobSnap with
        | some w => w.merge ((x.line n).job.snapshot x.lines.clock.toNat)
        | none => (x.line n).job.snapshot x.lines.clock.toNat) } := set_get_self _ _ _
  rw [hline]
  cases (x.line n).jobSnap <;> rfl

theorem Books.closeJob_handOver (n : Fin 16) (code : Nat) (x : Books) : (x.closeJob n code).lines.handOver =
    if (x.line n).jobSnap.isSome then x.lines.handOver else x.lines.handOver ++ [(.job, n)] := rfl

theorem Books.closeJob_ledger (n : Fin 16) (code : Nat) (x : Books) {posted : Ledger}
    (hposted : posted = if (x.line n).job.code = 0 then x.ledger
      else x.ledger.post ((x.line n).job.update n x.lines.clock.toNat)) : (x.closeJob n code).ledger = { posted with
      alerts := posted.alerts.latchIf ((x.line n).jobSnap.any
        (fun w => w.overflows ((x.line n).job.snapshot x.lines.clock.toNat))) .saturation } := by
  subst hposted
  show Ledger.mk _ (Alerts.latchIf _ _ _) = _
  cases (x.line n).jobSnap <;> rfl

/-- Settles O15, from the job close by unit, with a snapshot that waits or without. -/
theorem jobCloseSnapshotsPostsAndReopens : Obligations.JobCloseSnapshotsPostsAndReopens := by
  unfold Obligations.JobCloseSnapshotsPostsAndReopens
  intro n code x l y now passes posted
  have hline : y.line n = _ := Books.closeJob_line n code x
  have hjoined : y.lines.handOver = _ := Books.closeJob_handOver n code x
  rw [hline, hjoined]
  refine ⟨rfl, rfl, fun hnone => ?_, fun w hw => ?_, Books.closeJob_ledger n code x rfl, fun k hk => ?_, rfl, rfl, rfl⟩
  · have hnone' : (x.line n).jobSnap = none := hnone
    rw [hnone']
    exact ⟨rfl, rfl⟩
  · have hw' : (x.line n).jobSnap = some w := hw
    rw [hw']
    exact ⟨rfl, rfl⟩
  · exact set_get_other _ _ _ _ hk

theorem State.handOversTaken_iff (s : State) :
    s.handOversTaken = true ↔ s.lines.handOver = [] ∨ 16 ≤ s.writer.queue.length := by
  simp [State.handOversTaken]

/-! ### Events and matches (R49, R50, R85) -/

theorem misfires_iff (m : Image) (n : Fin 16) (e : LineEvent) (x : Books) : misfires m n e x = true ↔
    (x.line n).state = .idle ∨ ∃ code weight, e = .jobMark code weight ∧ (m.kind n = .furnace ∨ code = 0) := by
  cases e <;> simp [misfires]

/-- The matches of a burst are its matched matchers' deliveries in turn. -/
theorem foldl_ite_eq_foldl_filter {α β : Type} (p : β → Bool) (f : α → β → α) (l : List β) :
    ∀ a : α, l.foldl (fun a b => if p b then f a b else a) a = (l.filter p).foldl f a := by
  induction l with
  | nil => exact fun a => rfl
  | cons b rest ih =>
    intro a
    rw [List.foldl_cons, List.filter_cons]
    split
    · exact ih _
    · exact ih _

theorem bits_low (w : Word) (hi : Nat) : bits w hi 0 = w.toNat % 2 ^ (hi + 1) := by
  simp [bits]

/-- Settles O16, clause by clause. -/
theorem matchesDeliverEventsByTheStateTable : Obligations.MatchesDeliverEventsByTheStateTable := by
  unfold Obligations.MatchesDeliverEventsByTheStateTable
  refine ⟨fun l code weight duration => ?_, fun m n e x => ?_, fun m a ws s => ?_, fun m n e s => rfl,
    fun k s => ?_, fun ws k => rfl⟩
  · intro stopBin changeBin
    refine ⟨fun h => ?_, fun h => ?_, fun h => ?_, fun h => ?_, fun h => ?_, fun h => ?_, fun h hpending => ?_,
      fun h hpending => ?_⟩
    · rcases h with h | h <;> simp [Line.jobMark, h, Line.enterChangeover, changeBin]
    · simp [Line.jobMark, h]
    · simp [Line.stop, h, Line.enterStopped, stopBin]
    · simp [Line.stop, h, Line.enterStopped, stopBin]
    · simp [Line.stop, h]
    · rcases h with h | h <;> simp [Line.start, h]
    · simp [Line.start, h, hpending]
    · simp [Line.start, h, hpending, Line.enterChangeover, changeBin]
  · intro misfire
    exact ⟨fun h => if_pos ((misfires_iff m n e x).mpr h), fun h => if_neg (mt (misfires_iff m n e x).mp h),
      fun _ _ => rfl, rfl, rfl⟩
  · rw [State.matchNotice, foldl_ite_eq_foldl_filter]
    congr 1
    funext u i
    unfold Matcher.event
    cases haction : (m.matcher i).action with
    | jobMark =>
      simp only [haction, bits_low]
      rfl
    | invalid | lineStop | lineStart => simp only [haction]
  · refine ⟨rfl, fun h => State.handOvers_taken k s ((State.handOversTaken_iff s).mpr h), fun hlist hroom =>
      ⟨?_, fun hreset => ?_⟩⟩
    · have hopen : ¬ s.handOversTaken = true := by simp [State.handOversTaken_iff, hlist, hroom]
      rw [State.handOvers, if_neg hopen]
    · exact stepWhen_of_eq (f := State.handOverHead) (s := s)
        (by simp [hreset, hlist, hroom] :
          (!s.inReset && !s.lines.handOver.isEmpty && decide (s.writer.queue.length < 16)) = true) rfl

end Sys2Proof.Machine
end

section
/-! SUPPORT. Credits and reprime notices (R73, R88, R89, R100). -/

namespace Sys2Proof.Machine

theorem amountIf_eq (b : Bool) (n : Nat) : amountIf b n = if b = true then n else 0 := rfl

theorem amountIf_beq {α : Type} [DecidableEq α] (a b : α) (n : Nat) : amountIf (a == b) n = if a = b then n else 0 := by
  simp [amountIf]

theorem Quantity.isEnergy_iff (q : Quantity) :
    q.isEnergy = true ↔ q = .thermal ∨ q = .electric ∨ q = .auxiliary := by
  cases q <;> simp [Quantity.isEnergy]

/-- The energy of a credit (R88). -/
theorem amountIf_isEnergy (q : Quantity) (n : Nat) :
    amountIf q.isEnergy n = if q = .thermal ∨ q = .electric ∨ q = .auxiliary then n else 0 := by
  rw [amountIf_eq]
  simp only [Quantity.isEnergy_iff]

/-- A credit to a line that counts: the bin's part, and for a FORMING line the job's (R88, R100). -/
theorem Line.credit_counting (kind : LineKind) (c : Credit) {l : Line} (h : l.state ≠ .idle) : l.credit kind c =
    (let b := l.bin.credit c (l.state == .changeover)
     let j := l.job.credit c (l.state == .changeover)
     ({ l with
        bin := b.1, summarySaturation := l.summarySaturation || b.2,
        job := if kind = .forming then j.1 else l.job },
      b.2 || (decide (kind = .forming) && j.2))) := by
  unfold Line.credit
  rw [if_neg h]
  by_cases hkind : kind = .forming
  · simp [hkind]
  · simp [hkind]

/-- Settles O17: the bin's and the job's additions, each by its field. -/
theorem creditsAddByQuantityAndMark : Obligations.CreditsAddByQuantityAndMark := by
  unfold Obligations.CreditsAddByQuantityAndMark
  refine ⟨?_, fun l => rfl, fun m n c x => rfl, fun n x => rfl⟩
  intro kind c l r energy top32 add carried estimated changeover binPasses jobPasses
  refine ⟨fun hidle => if_pos hidle, fun hcounts => ?_⟩
  have henergy : amountIf c.quantity.isEnergy c.amount = energy := amountIf_isEnergy _ _
  have hadd (q : Quantity) : amountIf (c.quantity == q) c.amount = add q := amountIf_beq _ _ _
  have hchangeover : amountIf (l.state == .changeover) energy = changeover := amountIf_beq _ _ _
  have hbin : l.bin.credit c (l.state == .changeover) = ({ l.bin with
      thermal := min (l.bin.thermal + add .thermal) top32, electric := min (l.bin.electric + add .electric) top32,
      auxiliary := min (l.bin.auxiliary + add .auxiliary) top32, carriedIn := min (l.bin.carriedIn + carried) top32,
      estimated := min (l.bin.estimated + estimated) top32,
      changeover := min (l.bin.changeover + changeover) top32,
      pulledGrams := min (l.bin.pulledGrams + add .pulled) top32,
      packedGrams := min (l.bin.packedGrams + add .packed) top32,
      unweighed := min (l.bin.unweighed + add .unweighed) 65535,
      flags := { l.bin.flags with saturated := l.bin.flags.saturated || binPasses } }, binPasses) := by
    simp only [Bin.credit, henergy, hadd, hchangeover]
    rfl
  have hjob : l.job.credit c (l.state == .changeover) = ({ l.job with
      energy := min (l.job.energy + energy) (2 ^ 64 - 1), changeover := min (l.job.changeover + changeover) top32,
      pulledGrams := min (l.job.pulledGrams + add .pulled) (2 ^ 64 - 1),
      packedGrams := min (l.job.packedGrams + add .packed) (2 ^ 64 - 1),
      saturated := l.job.saturated || jobPasses }, jobPasses) := by
    simp only [Job.credit, henergy, hadd, hchangeover]
    rfl
  have hcredit := Line.credit_counting kind c hcounts
  rw [hbin, hjob] at hcredit
  have hr : r = _ := congrArg Prod.fst hcredit
  rw [hr, hcredit]
  refine ⟨rfl, rfl, rfl, rfl, rfl, rfl, rfl, rfl, rfl, rfl, rfl, rfl, rfl, rfl, rfl, rfl, rfl, fun hkind => ?_,
    fun hkind => ?_, fun hpasses => ?_⟩
  · simp [hkind]
  · subst hkind
    exact ⟨rfl, rfl, rfl, rfl, rfl, rfl, rfl, rfl, rfl, rfl⟩
  · rcases Bool.or_eq_true_iff.mp hpasses with hb | hj
    · exact .inl (Bool.or_eq_true_iff.mpr (.inr hb))
    · obtain ⟨hkind, hj⟩ := Bool.and_eq_true_iff.mp hj
      refine .inr ?_
      simp only [of_decide_eq_true hkind, if_true]
      exact Bool.or_eq_true_iff.mpr (.inr hj)

end Sys2Proof.Machine
end

section
/-! SUPPORT. The words of a notice, and the step of the plant clock (R82, R83, R90, R188). -/

namespace Sys2Proof.Machine

/-! ### The words of a notice -/

theorem mem_addressed {c : Nat × WriteWord} {ws : List WriteWord} :
    ∀ {a : Nat}, c ∈ addressed a ws ↔ ∃ k, ws[k]? = some c.2 ∧ c.1 = a + 4 * k := by
  induction ws with
  | nil => simp [addressed]
  | cons w rest ih =>
    intro a
    rw [addressed, List.mem_cons, ih]
    constructor
    · rintro (rfl | ⟨k, hk, hc⟩)
      · exact ⟨0, rfl, rfl⟩
      · exact ⟨k + 1, hk, by omega⟩
    · rintro ⟨_ | k, hk, hc⟩
      · exact .inl (Prod.ext hc (Option.some.inj hk).symm)
      · exact .inr ⟨k, hk, by omega⟩

/-- Where at most one member meets a test, the search finds that one. -/
theorem find?_eq_some_iff_of_unique {α : Type} {p : α → Bool} {l : List α}
    (hunique : ∀ c ∈ l, ∀ d ∈ l, p c = true → p d = true → c = d) (c : α) :
    l.find? p = some c ↔ c ∈ l ∧ p c = true := by
  refine ⟨fun h => ⟨List.mem_of_find?_eq_some h, List.find?_some h⟩, fun ⟨hmem, hp⟩ => ?_⟩
  cases hfind : l.find? p with
  | none => exact absurd hp (List.find?_eq_none.mp hfind c hmem)
  | some d =>
    rw [hunique d (List.mem_of_find?_eq_some hfind) c hmem (List.find?_some hfind) hp]

/-- A word address of the block is the one of its word. -/
theorem Setup.wordNumber_eq_some_iff (u : Setup) {a i : Nat} (ha : a % 4 = 0) (hi : i < 2048) :
    u.wordNumber a = some i ↔ a = u.blockAddress + 4 * i := by
  have hblock : u.blockAddress % 4 = 0 := by
    show u.base.toNat * 16777216 % 4 = 0
    omega
  unfold Setup.wordNumber
  split
  · rw [Option.some.injEq]
    omega
  · constructor
    · nofun
    · intro h
      omega

/-- The word of a notice at setup word `i` is the one at its address. -/
theorem Setup.noticeWord_eq_some_iff (u : Setup) {i a : Nat} (ws : List WriteWord) (w : WriteWord) (ha : a % 4 = 0)
    (hi : i < 2048) :
    u.noticeWord i a ws = some w ↔ ∃ k, ws[k]? = some w ∧ a + 4 * k = u.blockAddress + 4 * i := by
  have hplace {c : Nat × WriteWord} (hc : c ∈ addressed a ws) :
      (u.wordNumber c.1 == some i) = true ↔ c.1 = u.blockAddress + 4 * i := by
    obtain ⟨k, -, hk⟩ := mem_addressed.mp hc
    rw [beq_iff_eq, u.wordNumber_eq_some_iff (by omega) hi]
  have hunique : ∀ c ∈ addressed a ws, ∀ d ∈ addressed a ws, (u.wordNumber c.1 == some i) = true →
      (u.wordNumber d.1 == some i) = true → c = d := by
    intro c hc d hd hci hdi
    obtain ⟨j, hj, hcj⟩ := mem_addressed.mp hc
    obtain ⟨k, hk, hdk⟩ := mem_addressed.mp hd
    have hsame := ((hplace hc).mp hci).trans ((hplace hd).mp hdi).symm
    obtain rfl : j = k := by omega
    exact Prod.ext hsame (Option.some.inj (hj.symm.trans hk))
  rw [Setup.noticeWord, Option.map_eq_some_iff]
  constructor
  · rintro ⟨c, hfind, rfl⟩
    obtain ⟨hc, hci⟩ := (find?_eq_some_iff_of_unique hunique c).mp hfind
    obtain ⟨k, hk, hck⟩ := mem_addressed.mp hc
    exact ⟨k, hk, hck.symm.trans ((hplace hc).mp hci)⟩
  · rintro ⟨k, hk, hak⟩
    have hc : (a + 4 * k, w) ∈ addressed a ws := mem_addressed.mpr ⟨k, hk, rfl⟩
    exact ⟨_, (find?_eq_some_iff_of_unique hunique _).mpr ⟨hc, (hplace hc).mpr hak⟩, rfl⟩

/-! ### What group closes leave (R90) -/

theorem Ledger.post_grew (x : Ledger) (u : Update) : Alerts.Grew x.alerts (x.post u).alerts := by
  unfold Ledger.post Ledger.turnAway
  split
  · exact .refl _
  · have howed : Alerts.Grew x.alerts { x.alerts with owed := { x.alerts.owed with
        lostTally := x.alerts.owed.lostTally || decide (x.tally.lost.add .queueFull u ≠ x.tally.lost) } } :=
      ⟨rfl, fun _ h => h⟩
    exact howed.trans (Alerts.grew_latch _ _)

theorem Ledger.postAll_grew (us : List Update) : ∀ x : Ledger, Alerts.Grew x.alerts (x.postAll us).alerts := by
  induction us with
  | nil => exact fun x => .refl _
  | cons u rest ih => exact fun x => (x.post_grew u).trans (ih _)

theorem Books.closeGroup_grew (m : Image) (h : Fin 16) (we : Bool) (x : Books) :
    Alerts.Grew x.ledger.alerts (x.closeGroup m h we).ledger.alerts :=
  (Ledger.postAll_grew _ _).trans (Alerts.grew_latchIf _ _ _)

/-- What closes of groups leave of the books, whatever the groups. -/
structure Books.Timed (x y : Books) : Prop where
  clock : y.lines.clock = x.lines.clock
  pulses : y.lines.pulses = x.lines.pulses
  advancesDue : y.lines.advancesDue = x.lines.advancesDue
  alerts : Alerts.Grew x.ledger.alerts y.ledger.alerts
  meter : ∀ e : Fin 256, (y.channels.meters[e]).timer = (x.channels.meters[e]).timer
  line : ∀ k, (y.line k).timer = (x.line k).timer ∧ (y.line k).state = (x.line k).state

theorem Books.Timed.refl (x : Books) : x.Timed x := ⟨rfl, rfl, rfl, .refl _, fun _ => rfl, fun _ => ⟨rfl, rfl⟩⟩

theorem Books.Timed.trans {x y z : Books} (h : x.Timed y) (g : y.Timed z) : x.Timed z where
  clock := g.clock.trans h.clock
  pulses := g.pulses.trans h.pulses
  advancesDue := g.advancesDue.trans h.advancesDue
  alerts := h.alerts.trans g.alerts
  meter e := (g.meter e).trans (h.meter e)
  line k := ⟨(g.line k).1.trans (h.line k).1, (g.line k).2.trans (h.line k).2⟩

theorem Books.closeGroup_timed (m : Image) (h : Fin 16) (we : Bool) (x : Books) : x.Timed (x.closeGroup m h we) := by
  refine ⟨rfl, rfl, rfl, x.closeGroup_grew m h we, fun e => ?_, fun k => ?_⟩
  · rw [Books.closeGroup_meter]
  · rw [Books.closeGroup_line]
    split
    · rw [Books.closedLine, Line.close_eq]
      exact ⟨rfl, rfl⟩
    · exact ⟨rfl, rfl⟩

/-- The bin of a member starts at the clock after the close (R96). -/
theorem Books.closeGroup_start {m : Image} {h n : Fin 16} (we : Bool) (x : Books) (hn : n ∈ m.members h) :
    ((x.closeGroup m h we).line n).bin.start = x.lines.clock.toNat := by
  rw [Books.closeGroup_line, if_pos hn, Books.closedLine, Line.close_eq]
  rfl

/-- Groups closed one after another, each with or without its epoch. -/
def Books.closeAll (m : Image) (we : Fin 16 → Bool) (hs : List (Fin 16)) (x : Books) : Books :=
  hs.foldl (fun x h => x.closeGroup m h (we h)) x

theorem Books.closeAll_timed (m : Image) (we : Fin 16 → Bool) (hs : List (Fin 16)) :
    ∀ x : Books, x.Timed (x.closeAll m we hs) := by
  induction hs with
  | nil => exact Books.Timed.refl
  | cons h rest ih => exact fun x => (x.closeGroup_timed m h (we h)).trans (ih _)

/-- A line of none of the groups stays. -/
theorem Books.closeAll_line_of_not_mem {m : Image} {we : Fin 16 → Bool} {k : Fin 16} {hs : List (Fin 16)}
    (hk : ∀ h ∈ hs, k ∉ m.members h) : ∀ x : Books, (x.closeAll m we hs).line k = x.line k := by
  induction hs with
  | nil => exact fun x => rfl
  | cons h rest ih =>
    obtain ⟨hfirst, hrest⟩ := List.forall_mem_cons.mp hk
    intro x
    refine (ih hrest _).trans ?_
    rw [Books.closeGroup_line, if_neg hfirst]

/-- A bin that starts at the clock does so after more closes. -/
theorem Books.closeAll_start_kept {m : Image} {we : Fin 16 → Bool} {k : Fin 16} (hs : List (Fin 16)) :
    ∀ x : Books, (x.line k).bin.start = x.lines.clock.toNat →
      ((x.closeAll m we hs).line k).bin.start = x.lines.clock.toNat := by
  induction hs with
  | nil => exact fun x h => h
  | cons h rest ih =>
    intro x hstart
    refine ih (x.closeGroup m h (we h)) ?_
    by_cases hk : k ∈ m.members h
    · exact Books.closeGroup_start _ _ hk
    · rw [Books.closeGroup_line, if_neg hk]
      exact hstart

/-- The bin of a member of one of the groups starts at the clock. -/
theorem Books.closeAll_start {m : Image} {we : Fin 16 → Bool} {h k : Fin 16} {hs : List (Fin 16)} (hh : h ∈ hs)
    (hk : k ∈ m.members h) : ∀ x : Books, ((x.closeAll m we hs).line k).bin.start = x.lines.clock.toNat := by
  induction hs with
  | nil => cases hh
  | cons g rest ih =>
    intro x
    rcases List.mem_cons.mp hh with rfl | hrest
    · exact Books.closeAll_start_kept rest (x.closeGroup m h (we h)) (Books.closeGroup_start _ _ hk)
    · exact ih hrest _

/-! ### The forward step's closes (R83, R90) -/

/-- Some bound's test, where a head has a bound. -/
theorem LineUnit.boundaryReached_eq (u : LineUnit) (h : Fin 16) :
    u.boundaryReached h = (u.bounds[h]).any (fun b => decide (b.bin ≤ u.clock.toNat)) := by
  unfold LineUnit.boundaryReached
  cases u.bounds[h] <;> rfl

theorem LineUnit.epochReached_eq (u : LineUnit) (h : Fin 16) :
    u.epochReached h = (u.bounds[h]).any (fun b => decide (b.epoch ≤ u.clock.toNat)) := by
  unfold LineUnit.epochReached
  cases u.bounds[h] <;> rfl

/-- A close leaves the bounds of the heads after its own, so the heads that close are those that the new clock has
reached at the start. -/
theorem forwardCloses_foldl (m : Image) (u : LineUnit) {hs : List (Fin 16)} (hnodup : hs.Nodup) :
    ∀ x : Books, x.lines.clock = u.clock → (∀ h ∈ hs, x.lines.bounds[h] = u.bounds[h]) →
      hs.foldl (fun x h => if x.lines.boundaryReached h then x.closeGroup m h (x.lines.epochReached h) else x) x =
      x.closeAll m u.epochReached (hs.filter u.boundaryReached) := by
  induction hs with
  | nil => exact fun x _ _ => rfl
  | cons h rest ih =>
    obtain ⟨hfirst, hrest⟩ := List.nodup_cons.mp hnodup
    intro x hclock hbounds
    obtain ⟨hbound, hlater⟩ := List.forall_mem_cons.mp hbounds
    have hreached : x.lines.boundaryReached h = u.boundaryReached h := by
      rw [LineUnit.boundaryReached_eq, LineUnit.boundaryReached_eq, hbound, hclock]
    have hepoch : x.lines.epochReached h = u.epochReached h := by
      rw [LineUnit.epochReached_eq, LineUnit.epochReached_eq, hbound, hclock]
    rw [List.foldl_cons, List.filter_cons, hreached, hepoch]
    split
    · refine ih hrest _ hclock fun k hk => ?_
      have hother : k ≠ h := fun he => hfirst (he ▸ hk)
      exact (set_get_other _ _ _ _ hother).trans (hlater k hk)
    · exact ih hrest x hclock hlater

theorem Books.forwardCloses_eq (m : Image) (x : Books) : x.forwardCloses m =
    x.closeAll m x.lines.epochReached ((List.finRange 16).filter x.lines.boundaryReached) :=
  forwardCloses_foldl m x.lines (List.nodup_finRange 16) x rfl fun _ _ => rfl

/-- The heads that close, by their bounds at the start of the step. -/
theorem Books.forwardCloses_bounds (m : Image) (x : Books) : x.forwardCloses m =
    x.closeAll m (fun h => (x.lines.bounds[h]).any (fun b => decide (b.epoch ≤ x.lines.clock.toNat)))
      ((List.finRange 16).filter (fun h =>
        (x.lines.bounds[h]).any (fun b => decide (b.bin ≤ x.lines.clock.toNat)))) := by
  simp only [← LineUnit.boundaryReached_eq, ← LineUnit.epochReached_eq]
  exact x.forwardCloses_eq m

/-! ### The step of the clock (R83) -/

theorem State.stepClock_same (s : State) : s.stepClock s.lines.clock = s := if_pos rfl

/-- A backward step takes the clock and renews the boundaries. -/
theorem State.stepClock_backward {s : State} {v : Word} (h : v.toNat < s.lines.clock.toNat) : s.stepClock v =
    { s with
      lines := ({ s.lines with clock := v } : LineUnit).renewBounds s.cfg
      alerts := s.alerts.latch .clockStep } := by
  unfold State.stepClock
  rw [if_neg (by rintro rfl; exact Nat.lt_irrefl _ h)]
  dsimp only
  rw [if_neg (Nat.lt_asymm h)]
  rfl

/-- A forward step closes the groups that it reaches, and then renews the boundaries. -/
theorem State.stepClock_forward {s : State} {v : Word} (h : s.lines.clock.toNat < v.toNat) {x : Books}
    (hx : x = ({ s.books with lines := { s.lines with clock := v } } : Books).forwardCloses s.cfg) : s.stepClock v =
    { s with
      channels := x.channels, lines := x.lines.renewBounds s.cfg, tally := x.ledger.tally
      alerts := x.ledger.alerts.latch .clockStep } := by
  unfold State.stepClock
  rw [if_neg (by rintro rfl; exact Nat.lt_irrefl _ h)]
  dsimp only
  rw [if_pos h, ← hx]
  rfl

theorem LineUnit.renewBounds_bound (m : Image) (u : LineUnit) (h : Fin 16) : (u.renewBounds m).bounds[h] =
    if m.isHead h then some (m.boundAt h u.clock.toNat) else none := tabulate_get _ _ _

/-- What the clock's step leaves, whichever way it goes. -/
structure State.ClockTaken (s : State) (v : Word) (t : State) : Prop where
  clock : t.lines.clock = v
  pulses : t.lines.pulses = s.lines.pulses
  advancesDue : t.lines.advancesDue = s.lines.advancesDue
  reportTimer : t.alerts.reportTimer = s.alerts.reportTimer
  meter : ∀ e : Fin 256, (t.channels.meters[e]).timer = (s.channels.meters[e]).timer
  line : ∀ k : Fin 16, (t.lines.lines[k]).timer = (s.lines.lines[k]).timer ∧
    (t.lines.lines[k]).state = (s.lines.lines[k]).state
  step : v ≠ s.lines.clock → t.alerts.has .clockStep = true ∧
    ∀ h : Fin 16, t.lines.bounds[h] = if s.cfg.isHead h then some (s.cfg.boundAt h v.toNat) else none

theorem State.stepClock_taken (s : State) (v : Word) : s.ClockTaken v (s.stepClock v) := by
  rcases Nat.lt_trichotomy v.toNat s.lines.clock.toNat with hback | hsame | hforward
  · rw [State.stepClock_backward hback]
    exact ⟨rfl, rfl, rfl, Alerts.latch_reportTimer _ _, fun _ => rfl, fun _ => ⟨rfl, rfl⟩,
      fun _ => ⟨Alerts.has_latch_self _ _, LineUnit.renewBounds_bound _ _⟩⟩
  · obtain rfl := BitVec.eq_of_toNat_eq hsame
    rw [State.stepClock_same]
    exact ⟨rfl, rfl, rfl, rfl, fun _ => rfl, fun _ => ⟨rfl, rfl⟩, fun hne => absurd rfl hne⟩
  · rw [State.stepClock_forward hforward rfl, Books.forwardCloses_eq]
    obtain ⟨hclock, hpulses, hdue, halerts, hmeter, hline⟩ := Books.closeAll_timed s.cfg
      ({ s.lines with clock := v } : LineUnit).epochReached
      ((List.finRange 16).filter ({ s.lines with clock := v } : LineUnit).boundaryReached)
      { s.books with lines := { s.lines with clock := v } }
    refine ⟨hclock, hpulses, hdue, (Alerts.latch_reportTimer _ _).trans halerts.reportTimer, hmeter, hline,
      fun _ => ⟨Alerts.has_latch_self _ _, fun h => ?_⟩⟩
    refine (LineUnit.renewBounds_bound _ _ h).trans ?_
    have hclock' : (Books.lines _).clock = v := hclock
    rw [hclock']

theorem State.takeClockWord_eq {s : State} {n : Notice} {w : WriteWord} (hn : s.pass.notice = some n)
    (hw : s.setup.noticeWord 4 n.address n.words = some w) : s.takeClockWord =
    ({ s with pass := { s.pass with notice := { n with clockDue := false }.settled } } : State).stepClock
      (mergeBytes s.lines.clock w) := by
  unfold State.takeClockWord State.writtenClock
  rw [hn]
  dsimp only
  rw [hw]
  rfl

/-- Settles O18: the written word by its address, the step by its direction. -/
theorem clockWordWriteStepsTheClock : Obligations.ClockWordWriteStepsTheClock := by
  unfold Obligations.ClockWordWriteStepsTheClock
  refine ⟨fun u i a ws w ha hi => u.noticeWord_eq_some_iff ws w ha hi, ?_⟩
  intro s n w v hreset hn hdue hcapture hcloses hw hv taken heads x
  have hready : s.clockReady = true := by simp [State.clockReady, hn, hdue, hcapture]
  have heffect : s.takeClockWord = taken.stepClock v := (State.takeClockWord_eq hn hw).trans (by rw [hv])
  have hexec : exec .clockWordWrite s = .next (taken.stepClock v).requestMirror :=
    (stepWhen_can State.takeClockWord s (by simp [hreset, hready, hcloses])).trans (by rw [heffect])
  have hx : x = ({ s.books with lines := { s.lines with clock := v } } : Books).forwardCloses s.cfg :=
    (Books.forwardCloses_bounds s.cfg { s.books with lines := { s.lines with clock := v } }).symm
  have hsteps (hforward : s.lines.clock.toNat < v.toNat) := State.stepClock_forward (s := taken) hforward hx
  obtain ⟨hclock, hpulses, hadvances, hreport, hmeter, hline, hstep⟩ := taken.stepClock_taken v
  refine ⟨_, hexec, fun hsame => ?_, fun hback => ?_, fun hforward => ⟨?_, fun h hh k hk => ?_, fun k hk => ?_⟩,
    fun hne => ?_, hclock, hpulses, hadvances, ?_, hmeter, hline⟩
  · have hstay : taken.stepClock v = taken := by
      rw [hsame]
      exact taken.stepClock_same
    rw [hstay]
    exact ⟨_, requestMirror_eq taken⟩
  · have hsteps := State.stepClock_backward (s := taken) hback
    refine ⟨(taken.stepClock v).requestMirror.alerts.mirror, (requestMirror_eq _).trans ?_⟩
    rw [hsteps]
    rfl
  · refine ⟨(taken.stepClock v).requestMirror.alerts.mirror, (requestMirror_eq _).trans ?_⟩
    rw [hsteps hforward]
    rfl
  · show ((taken.stepClock v).lines.lines[k]).bin.start = v.toNat
    rw [hsteps hforward]
    exact Books.closeAll_start hh hk { s.books with lines := { s.lines with clock := v } }
  · show (taken.stepClock v).lines.lines[k] = s.lines.lines[k]
    rw [hsteps hforward]
    exact Books.closeAll_line_of_not_mem hk { s.books with lines := { s.lines with clock := v } }
  · rw [State.requestMirror_has]
    exact hstep hne
  · rw [requestMirror_reportTimer]
    exact hreport

end Sys2Proof.Machine
end

section
/-! SUPPORT. The fields of the setup words (sections 8.1 and 10.4). -/

namespace Sys2Proof.Machine

/-! ### Fields and flags -/

theorem bits_flag (w : Word) (k : Nat) : (bits w k k == 1) = w.getLsbD k := by
  rw [BitVec.getLsbD, Nat.testBit_eq_decide_div_mod_eq]
  exact Bool.eq_iff_iff.mpr (by simp [bits])

theorem bits_flag_eq_one_iff (w : Word) (k : Nat) : bits w k k = 1 ↔ w.getLsbD k = true := by
  rw [← bits_flag, beq_iff_eq]

theorem truncate_eq_ofNat_bits (w : Word) : w.truncate 16 = BitVec.ofNat 16 (bits w 15 0) := by
  refine BitVec.eq_of_toNat_eq ?_
  simp [bits]

theorem kindOf_eq_furnace_iff (c : Nat) : kindOf c = .furnace ↔ c = 1 := by
  unfold kindOf
  split <;> simp_all

theorem kindOf_eq_forming_iff (c : Nat) : kindOf c = .forming ↔ c = 2 := by
  unfold kindOf
  split <;> simp_all

theorem kindOf_ne_none_iff (c : Nat) : kindOf c ≠ .none ↔ c = 1 ∨ c = 2 := by
  unfold kindOf
  split <;> simp_all

theorem Image.parentPresent_eq (m : Image) (n : Fin 16) : m.parentPresent n = (m.get (136 + 4 * n)).getLsbD 7 :=
  bits_flag _ _

theorem Image.parent_eq (m : Image) (n : Fin 16) : m.parent n =
    if m.lineCode n = 2 ∧ (m.get (136 + 4 * n)).getLsbD 7 = true then some (m.parentLine n) else none := by
  unfold Image.parent
  simp only [Image.parentPresent_eq, Image.kind, kindOf_eq_forming_iff]

theorem Image.isHead_iff (m : Image) (n : Fin 16) :
    m.isHead n = true ↔ m.kind n = .furnace ∨ (m.kind n = .forming ∧ m.parent n = none) := by
  unfold Image.isHead
  cases m.kind n <;> simp

theorem Image.mem_members (m : Image) (n k : Fin 16) :
    k ∈ m.members n ↔ m.isHead n = true ∧ (k = n ∨ m.parent k = some n) := by
  by_cases hhead : m.isHead n = true
  · simp [Image.mem_members_iff hhead, hhead]
  · simp [Image.members, hhead]

theorem Image.children_eq (m : Image) (n : Fin 16) :
    m.children n = (List.finRange 16).filter (fun k => decide (m.parent k = some n)) := by
  unfold Image.children allLines
  congr 1
  funext k
  exact Bool.eq_iff_iff.mpr (by simp)

/-- The entry that a channel number finds is the lowest enabled one that holds it (R53). -/
theorem Image.entryOf_eq_some_iff (m : Image) (c : Nat) (e : Fin 256) : m.entryOf c = some e ↔
    (m.channelEnabled e = true ∧ (m.channel e).channel = c) ∧
    ∀ d, d < e → ¬ (m.channelEnabled d = true ∧ (m.channel d).channel = c) := by
  unfold Image.entryOf allEntries
  rw [← Fin.find?_eq_find?_finRange, Fin.find?_eq_some_iff]
  simp only [Bool.and_eq_true, beq_iff_eq, ← Bool.not_eq_true]
  rfl

/-! ### The setup in force -/

theorem State.cfg_of_working {s : State} (h : s.setup.part = .active ∨ ∃ p, s.setup.part = .applying p) :
    s.cfg = s.setup.active.getD [] := by
  rcases h with h | ⟨p, h⟩ <;> simp [State.cfg, Setup.inForce, h]

theorem State.cfg_of_resting {s : State} (h : s.setup.part = .fetching ∨ s.setup.part = .unset) : s.cfg = [] := by
  rcases h with h | h <;> simp [State.cfg, Setup.inForce, h]

theorem Image.window_eq (m : Image) (i : Fin 4) : m.window i = {
    enabled := (m.get (33 + 2 * i)).getLsbD 31, base := (m.get (32 + 2 * i)).toNat,
    size := bits (m.get (33 + 2 * i)) 16 0, timeout := bits (m.get (33 + 2 * i)) 27 20 } := by
  rw [← bits_flag]
  rfl

theorem Image.matcher_eq (m : Image) (i : Fin 16) : m.matcher i = {
    enabled := (m.get (41 + 6 * i)).getLsbD 31, base := (m.get (40 + 6 * i)).toNat,
    size := bits (m.get (41 + 6 * i)) 11 0 + 1, action := actionOf (bits (m.get (41 + 6 * i)) 29 28),
    target := Fin.ofNat 16 (bits (m.get (41 + 6 * i)) 27 24), weightOffset := bits (m.get (42 + 6 * i)) 27 24,
    codeOffset := bits (m.get (42 + 6 * i)) 23 20, offset := bits (m.get (42 + 6 * i)) 19 16,
    mask := BitVec.ofNat 16 (bits (m.get (42 + 6 * i)) 15 0), expected := bits (m.get (43 + 6 * i)) 15 0 } := by
  rw [← bits_flag, ← truncate_eq_ofNat_bits]
  rfl

theorem Image.channelEnabled_eq (m : Image) (e : Fin 256) :
    m.channelEnabled e = (m.get (200 + 4 * e)).getLsbD 31 := bits_flag _ _

theorem Image.channel_eq (m : Image) (e : Fin 256) : m.channel e = {
    enabled := (m.get (200 + 4 * e)).getLsbD 31, width := bits (m.get (200 + 4 * e)) 29 24,
    role := bits (m.get (200 + 4 * e)) 19 18, kind := channelKindOf (bits (m.get (200 + 4 * e)) 17 16),
    line := Fin.ofNat 16 (bits (m.get (200 + 4 * e)) 15 12), channel := bits (m.get (200 + 4 * e)) 11 0,
    factor := (m.get (201 + 4 * e)).toNat, ceiling := (m.get (202 + 4 * e)).toNat,
    timeout := bits (m.get (203 + 4 * e)) 31 16, tolerance := bits (m.get (203 + 4 * e)) 15 0 } := by
  rw [← bits_flag]
  rfl

end Sys2Proof.Machine
end

section
/-! SUPPORT. Validation: when each entry fails, and the seven steps (R41, R54, R80, R124, R151 to R155). -/

namespace Sys2Proof.Machine

/-! ### When an entry fails -/

/-- Two spans of addresses share a byte. -/
def Shares (b l b' l' : Nat) : Prop := ∃ x, b ≤ x ∧ x < b + l ∧ b' ≤ x ∧ x < b' + l'

theorem Shares.symm {b l b' l' : Nat} : Shares b l b' l' → Shares b' l' b l :=
  fun ⟨x, h1, h2, h3, h4⟩ => ⟨x, h3, h4, h1, h2⟩

theorem overlaps_iff_shares (b l b' l' : Nat) : overlaps b l b' l' = true ↔ Shares b l b' l' := overlaps_iff _ _ _ _

/-- A header word fails its test (R153, R185). -/
def Image.HeaderBad (m : Image) (w : Nat) : Prop :=
  (w = 6 ∧ m.get 6 ≠ 0 ∧ m.get 6 ≠ 1) ∨
  (w = 7 ∧ ((m.get 7).toNat < 8 ∨ 64 < (m.get 7).toNat)) ∨
  (w = 8 ∧ (m.get 7).toNat ≤ (m.get 8).toNat) ∨
  (w = 9 ∧ ((m.get 9).toNat = 0 ∨ 255 < (m.get 9).toNat)) ∨
  (w = 10 ∧ ((m.get 10).toNat < 2 ∨ 7 < (m.get 10).toNat)) ∨
  (11 ≤ w ∧ w ≤ 14 ∧ (bits (m.get w) 3 0 = 0 ∨ 9 < bits (m.get w) 3 0 ∨ 9 < bits (m.get w) 7 4 ∨
    bits (m.get w) 7 4 = bits (m.get w) 3 0 ∨ 1 < bits (m.get w) 17 16)) ∨
  (w = 15 ∧ bits (m.get 15) 15 0 = 0) ∨
  (w = 17 ∧ ∃ k, k < 3 ∧ (bits (m.get 17) (2 * k + 1) (2 * k) = 0 ∨ bits (m.get 17) (2 * k + 1) (2 * k) = 3))

theorem Image.counterFails_iff (m : Image) (i : Fin 4) : m.counterFails i = true ↔
    bits (m.get (11 + i)) 3 0 = 0 ∨ 9 < bits (m.get (11 + i)) 3 0 ∨ 9 < bits (m.get (11 + i)) 7 4 ∨
    bits (m.get (11 + i)) 7 4 = bits (m.get (11 + i)) 3 0 ∨ 1 < bits (m.get (11 + i)) 17 16 := by
  simp only [Image.counterFails, Bool.or_eq_true, beq_iff_eq, decide_eq_true_eq, or_assoc]
  rfl

theorem edgeNamed_eq_false_iff {s : Nat} (hs : s < 4) : edgeNamed s = false ↔ s = 0 ∨ s = 3 := by
  simp only [edgeNamed, Bool.or_eq_false_iff, beq_eq_false_iff_ne]
  omega

theorem exists_lt_three {p : Nat → Prop} : (∃ k, k < 3 ∧ p k) ↔ p 0 ∨ p 1 ∨ p 2 := by
  constructor
  · rintro ⟨k, hk, hp⟩
    rcases (by omega : k = 0 ∨ k = 1 ∨ k = 2) with rfl | rfl | rfl
    · exact .inl hp
    · exact .inr (.inl hp)
    · exact .inr (.inr hp)
  · rintro (hp | hp | hp)
    · exact ⟨0, by decide, hp⟩
    · exact ⟨1, by decide, hp⟩
    · exact ⟨2, by decide, hp⟩

theorem bits_lt (w : Word) (hi lo : Nat) : bits w hi lo < 2 ^ (hi - lo + 1) :=
  Nat.mod_lt _ (Nat.two_pow_pos _)

theorem Image.headerFails_iff (m : Image) (w : Nat) : m.headerFails w = true ↔ m.HeaderBad w := by
  have hedge (k : Nat) : bits (m.get 17) (2 * k + 1) (2 * k) < 4 := by
    have h := bits_lt (m.get 17) (2 * k + 1) (2 * k)
    rwa [show 2 * k + 1 - 2 * k + 1 = 2 by omega] at h
  unfold Image.headerFails Image.HeaderBad
  split
  case h_1 =>
    have hvalue : 1 < (m.get 6).toNat ↔ m.get 6 ≠ 0 ∧ m.get 6 ≠ 1 := by
      generalize m.get 6 = v
      bv_omega
    simpa using hvalue
  case h_2 =>
    simp only [Bool.or_eq_true, decide_eq_true_eq]
    simp [Image.highWater]
  case h_3 =>
    simp only [decide_eq_true_eq]
    simp [Image.highWater, Image.lowWater]
  case h_4 =>
    simp only [Bool.or_eq_true, beq_iff_eq, decide_eq_true_eq]
    simp [Image.holdLimit]
  case h_5 =>
    simp only [Bool.or_eq_true, decide_eq_true_eq]
    simp [Image.reprimeThreshold]
  case h_6 => simpa using m.counterFails_iff 0
  case h_7 => simpa using m.counterFails_iff 1
  case h_8 => simpa using m.counterFails_iff 2
  case h_9 => simpa using m.counterFails_iff 3
  case h_10 => simp [Image.reportInterval]
  case h_11 =>
    simp only [Bool.not_eq_true', Bool.and_eq_false_iff, Image.holdEdgeSelect, Image.spillEdgeSelect,
      Image.staleEdgeSelect, edgeNamed_eq_false_iff (hedge 0), edgeNamed_eq_false_iff (hedge 1),
      edgeNamed_eq_false_iff (hedge 2)]
    simp [exists_lt_three, or_assoc]
  case h_12 h6 h7 h8 h9 h10 h11 h12 h13 h14 h15 h17 =>
    refine iff_of_false Bool.false_ne_true ?_
    rintro (⟨hw, -⟩ | ⟨hw, -⟩ | ⟨hw, -⟩ | ⟨hw, -⟩ | ⟨hw, -⟩ | ⟨hlow, hhigh, -⟩ | ⟨hw, -⟩ | ⟨hw, -⟩)
    · exact h6 hw
    · exact h7 hw
    · exact h8 hw
    · exact h9 hw
    · exact h10 hw
    · rcases (by omega : w = 11 ∨ w = 12 ∨ w = 13 ∨ w = 14) with hw | hw | hw | hw
      · exact h11 hw
      · exact h12 hw
      · exact h13 hw
      · exact h14 hw
    · exact h15 hw
    · exact h17 hw

/-- A window descriptor fails its tests (R154). -/
def Image.WindowBad (m : Image) (block : Nat) (i : Fin 4) : Prop :=
  (m.window i).enabled = true ∧
  ((m.window i).base % 4 ≠ 0 ∨ (m.window i).size < 64 ∨ 65536 < (m.window i).size ∨ (m.window i).timeout = 0 ∨
    0xFFFFFFFC < (m.window i).base + 4 * ((m.window i).size - 1) ∨
    (∃ j : Fin 4, j ≠ i ∧ (m.window j).enabled = true ∧
      Shares (m.window i).base (4 * (m.window i).size) (m.window j).base (4 * (m.window j).size)) ∨
    Shares (m.window i).base (4 * (m.window i).size) block 8448 ∨
    Shares (m.window i).base (4 * (m.window i).size) m.tallyBase 33280 ∨
    (∃ n, (m.lineCode n = 1 ∨ m.lineCode n = 2) ∧
      Shares (m.window i).base (4 * (m.window i).size) (m.ringBase n) (64 * (m.ringSize n + 1))) ∨
    (∃ k : Fin 16, (m.matcher k).enabled = true ∧
      Shares (m.window i).base (4 * (m.window i).size) (m.matcher k).base (4 * (m.matcher k).size)))

theorem Image.windowFails_iff (m : Image) (block : Nat) (i : Fin 4) :
    m.windowFails block i = true ↔ m.WindowBad block i := by
  have hend (hsize : ¬ (m.window i).size < 64) : spaceEnd < (m.window i).base + 4 * (m.window i).size ↔
      0xFFFFFFFC < (m.window i).base + 4 * ((m.window i).size - 1) := by
    unfold spaceEnd
    omega
  unfold Image.windowFails Image.WindowBad
  simp only [Bool.and_eq_true, Bool.or_eq_true, bne_iff_ne, beq_iff_eq, decide_eq_true_eq, List.any_eq_true,
    List.mem_finRange, true_and, allLines, Image.ringOverlaps, Matcher.overlapsSpan, overlaps_iff_shares, Image.kind,
    kindOf_ne_none_iff, Image.ringSpan, Nat.mul_comm _ 64, blockSpan, tallySpan, and_assoc, or_assoc]
  exact and_congr_right fun _ => or_congr_right (or_congr_right' fun hsize => or_congr_right (or_congr_right
    (or_congr_left (hend hsize))))

/-- A matcher descriptor fails its tests (R41). -/
def Image.MatcherBad (m : Image) (block : Nat) (i : Fin 16) : Prop :=
  (m.matcher i).enabled = true ∧
  (0xFFFFFFFC < (m.matcher i).base + 4 * ((m.matcher i).size - 1) ∨
    Shares (m.matcher i).base (4 * (m.matcher i).size) block 8448 ∨
    (∃ j : Fin 4, (m.window j).enabled = true ∧
      Shares (m.matcher i).base (4 * (m.matcher i).size) (m.window j).base (4 * (m.window j).size)) ∨
    (∃ n, m.lineCode n ≠ 0 ∧
      Shares (m.matcher i).base (4 * (m.matcher i).size) (m.ringBase n) (64 * (m.ringSize n + 1))) ∨
    Shares (m.matcher i).base (4 * (m.matcher i).size) m.tallyBase 33280 ∨ (m.matcher i).mask = 0 ∨
    (∃ k, k < 16 ∧ (m.matcher i).mask.getLsbD k = true ∧ 15 < (m.matcher i).offset + k) ∨
    bits (m.get (41 + 6 * i)) 29 28 = 0)

theorem actionOf_eq_invalid_iff {c : Nat} (hc : c < 4) : actionOf c = .invalid ↔ c = 0 := by
  unfold actionOf
  split
  case h_1 => simp
  case h_2 => simp
  case h_3 => simp
  case h_4 h1 h2 h3 =>
    refine iff_of_true rfl ?_
    simp only [imp_false] at h1 h2 h3
    omega

theorem Image.matcherFails_iff (m : Image) (block : Nat) (i : Fin 16) :
    m.matcherFails block i = true ↔ m.MatcherBad block i := by
  have hend : spaceEnd < (m.matcher i).base + 4 * (m.matcher i).size ↔
      0xFFFFFFFC < (m.matcher i).base + 4 * ((m.matcher i).size - 1) := by
    have hsize : 0 < (m.matcher i).size := Nat.succ_pos _
    unfold spaceEnd
    omega
  have haction : (m.matcher i).action = .invalid ↔ bits (m.get (41 + 6 * i)) 29 28 = 0 :=
    actionOf_eq_invalid_iff (bits_lt _ 29 28)
  unfold Image.matcherFails Image.MatcherBad
  simp only [Bool.and_eq_true, Bool.or_eq_true, bne_iff_ne, beq_iff_eq, decide_eq_true_eq, List.any_eq_true,
    List.mem_finRange, true_and, allLines, Image.ringOverlaps, overlaps_iff_shares, List.mem_range,
    Image.ringSpan, Nat.mul_comm _ 64, blockSpan, tallySpan, or_assoc, hend, haction]

/-- A line descriptor fails its tests (R80). -/
def Image.LineBad (m : Image) (block : Nat) (n : Fin 16) : Prop :=
  m.lineCode n ≠ 0 ∧
  (m.lineCode n = 3 ∨
    ((m.get (136 + 4 * n)).getLsbD 7 = true ∧ (m.lineCode n = 1 ∨ m.lineCode (m.parentLine n) ≠ 1)) ∨
    (m.lineCode n = 1 ∧ 7 < ((List.finRange 16).filter (fun k => decide (m.parent k = some n))).length) ∨
    ((m.lineCode n = 1 ∨ (m.lineCode n = 2 ∧ (m.get (136 + 4 * n)).getLsbD 7 = false)) ∧
      (m.binLength n < 60 ∨ 3600 < m.binLength n ∨ ¬ m.binLength n ∣ 86400 ∨ m.epochLength n < 1 ∨
        64 < m.epochLength n ∨ ¬ m.binLength n * m.epochLength n ∣ 86400)) ∨
    (m.lineCode n = 2 ∧ 14400 < m.changeoverDuration n) ∨
    m.ringBase n % 64 ≠ 0 ∨ (¬ ∃ k, 4 ≤ k ∧ k ≤ 12 ∧ m.ringSize n = 2 ^ k) ∨
    2 ^ 32 < m.ringBase n + 64 * (m.ringSize n + 1) ∨
    (∃ k, k ≠ n ∧ m.lineCode k ≠ 0 ∧
      Shares (m.ringBase n) (64 * (m.ringSize n + 1)) (m.ringBase k) (64 * (m.ringSize k + 1))) ∨
    Shares (m.ringBase n) (64 * (m.ringSize n + 1)) block 8448 ∨
    Shares (m.ringBase n) (64 * (m.ringSize n + 1)) m.tallyBase 33280)

theorem Shares.comm {b l b' l' : Nat} : Shares b l b' l' ↔ Shares b' l' b l := ⟨Shares.symm, Shares.symm⟩

theorem ringSizeValid_iff (n : Nat) : ringSizeValid n = true ↔ ∃ k, 4 ≤ k ∧ k ≤ 12 ∧ n = 2 ^ k := by
  have hpowers : [16, 32, 64, 128, 256, 512, 1024, 2048, 4096] = (List.range' 4 9).map (2 ^ ·) := by decide
  unfold ringSizeValid
  simp only [hpowers, List.contains_iff_mem, List.mem_map, List.mem_range'_1]
  constructor
  · rintro ⟨k, hk, rfl⟩
    exact ⟨k, hk.1, by omega, rfl⟩
  · rintro ⟨k, hlow, hhigh, rfl⟩
    exact ⟨k, by omega, rfl⟩

theorem Image.isHead_iff_code (m : Image) (n : Fin 16) : m.isHead n = true ↔
    m.lineCode n = 1 ∨ (m.lineCode n = 2 ∧ (m.get (136 + 4 * n)).getLsbD 7 = false) := by
  rw [m.isHead_iff, m.parent_eq, Image.kind, kindOf_eq_furnace_iff, kindOf_eq_forming_iff]
  refine or_congr_right (and_congr_right fun hcode => ?_)
  simp [hcode]

theorem Image.lengthsFail_iff (m : Image) (n : Fin 16) : m.lengthsFail n = true ↔
    (m.lineCode n = 1 ∨ (m.lineCode n = 2 ∧ (m.get (136 + 4 * n)).getLsbD 7 = false)) ∧
      (m.binLength n < 60 ∨ 3600 < m.binLength n ∨ ¬ m.binLength n ∣ 86400 ∨ m.epochLength n < 1 ∨
        64 < m.epochLength n ∨ ¬ m.binLength n * m.epochLength n ∣ 86400) := by
  unfold Image.lengthsFail
  simp only [Bool.and_eq_true, Bool.or_eq_true, bne_iff_ne, decide_eq_true_eq, m.isHead_iff_code,
    Nat.dvd_iff_mod_eq_zero, or_assoc, ne_eq]

theorem Image.parentFails_iff (m : Image) (n : Fin 16) : m.parentFails n = true ↔
    (m.get (136 + 4 * n)).getLsbD 7 = true ∧ (m.lineCode n = 1 ∨ m.lineCode (m.parentLine n) ≠ 1) := by
  unfold Image.parentFails
  simp only [Bool.and_eq_true, Bool.or_eq_true, bne_iff_ne, beq_iff_eq, m.parentPresent_eq, Image.kind,
    kindOf_eq_furnace_iff, ne_eq]

theorem Image.ringFails_iff (m : Image) (block : Nat) (n : Fin 16) : m.ringFails block n = true ↔
    m.ringBase n % 64 ≠ 0 ∨ (¬ ∃ k, 4 ≤ k ∧ k ≤ 12 ∧ m.ringSize n = 2 ^ k) ∨
    2 ^ 32 < m.ringBase n + 64 * (m.ringSize n + 1) ∨
    (∃ k, k ≠ n ∧ m.lineCode k ≠ 0 ∧
      Shares (m.ringBase n) (64 * (m.ringSize n + 1)) (m.ringBase k) (64 * (m.ringSize k + 1))) ∨
    Shares (m.ringBase n) (64 * (m.ringSize n + 1)) block 8448 ∨
    Shares (m.ringBase n) (64 * (m.ringSize n + 1)) m.tallyBase 33280 := by
  unfold Image.ringFails
  simp only [Bool.and_eq_true, Bool.or_eq_true, bne_iff_ne, Bool.not_eq_true', ← Bool.not_eq_true, ringSizeValid_iff,
    decide_eq_true_eq, List.any_eq_true, List.mem_finRange, true_and, allLines, Image.ringOverlaps,
    overlaps_iff_shares, Image.ringSpan, Nat.mul_comm _ 64, blockSpan, tallySpan, spaceEnd, and_assoc, or_assoc,
    Shares.comm (b := block), Shares.comm (b := m.tallyBase)]

theorem Image.lineFails_iff (m : Image) (block : Nat) (n : Fin 16) :
    m.lineFails block n = true ↔ m.LineBad block n := by
  unfold Image.lineFails Image.LineBad
  simp only [Bool.and_eq_true, Bool.or_eq_true, bne_iff_ne, beq_iff_eq, decide_eq_true_eq, m.parentFails_iff,
    m.lengthsFail_iff, m.ringFails_iff, Image.kind, kindOf_eq_furnace_iff, kindOf_eq_forming_iff, m.children_eq,
    or_assoc]

/-- A channel entry fails its tests (R54). -/
def Image.ChannelBad (m : Image) (e : Fin 256) : Prop :=
  (m.channel e).enabled = true ∧
  (¬ (m.lineCode (m.channel e).line = 1 ∨ m.lineCode (m.channel e).line = 2) ∨
    bits (m.get (200 + 4 * e)) 17 16 = 3 ∨ (bits (m.get (200 + 4 * e)) 17 16 = 0 ∧ (m.channel e).role = 3) ∨
    (bits (m.get (200 + 4 * e)) 17 16 ≠ 0 ∧ 1 < (m.channel e).role) ∨
    ((m.channel e).width ≠ 16 ∧ (m.channel e).width ≠ 24 ∧ (m.channel e).width ≠ 32) ∨
    (m.channel e).ceiling < 1 ∨ 2 ^ 31 < (m.channel e).ceiling ∨
    2 ^ (m.channel e).width ≤ (m.channel e).ceiling ∨ (m.channel e).timeout < 1 ∨
    ∃ k : Fin 256, k < e ∧ (m.channel k).enabled = true ∧ (m.channel k).channel = (m.channel e).channel)

theorem ChannelSetup.kindValid_eq_false_iff {c : ChannelSetup} {code : Nat} (hkind : c.kind = channelKindOf code)
    (hcode : code < 4) (hrole : c.role < 4) : c.kindValid = false ↔
    code = 3 ∨ (code = 0 ∧ c.role = 3) ∨ (code ≠ 0 ∧ 1 < c.role) := by
  unfold ChannelSetup.kindValid
  rw [hkind]
  rcases (by omega : code = 0 ∨ code = 1 ∨ code = 2 ∨ code = 3) with rfl | rfl | rfl | rfl
  · have hzero : c.role = 3 ↔ ¬ c.role ≤ 2 := by omega
    simp [channelKindOf, hzero]
  · simp [channelKindOf]
  · simp [channelKindOf]
  · simp [channelKindOf]

theorem Image.channelFails_iff (m : Image) (e : Fin 256) : m.channelFails e = true ↔ m.ChannelBad e := by
  have hvalid := ChannelSetup.kindValid_eq_false_iff (c := m.channel e) rfl
    (bits_lt (m.get (200 + 4 * e)) 17 16) (bits_lt (m.get (200 + 4 * e)) 19 18)
  have hnone : m.kind (m.channel e).line = .none ↔
      ¬ (m.lineCode (m.channel e).line = 1 ∨ m.lineCode (m.channel e).line = 2) := by
    rw [← kindOf_ne_none_iff, not_not]
    rfl
  have hwidth : (((m.channel e).width == 16 || (m.channel e).width == 24 || (m.channel e).width == 32) = false) ↔
      (m.channel e).width ≠ 16 ∧ (m.channel e).width ≠ 24 ∧ (m.channel e).width ≠ 32 := by
    simp [and_assoc]
  unfold Image.channelFails Image.ChannelBad
  simp only [Bool.and_eq_true, Bool.or_eq_true, beq_iff_eq, Bool.not_eq_true', hvalid, hwidth, hnone,
    decide_eq_true_eq, List.any_eq_true, List.mem_finRange, true_and, allEntries, and_assoc, or_assoc]
  rfl

/-- The tally base fails its tests (R124). -/
def Image.TallyBad (m : Image) (block : Nat) : Prop :=
  m.tallyBase % 32 ≠ 0 ∨ 0xFFFFFFFF < m.tallyBase + 33279 ∨ Shares m.tallyBase 33280 block 8448

theorem Image.tallyFails_iff (m : Image) (block : Nat) : m.tallyFails block = true ↔ m.TallyBad block := by
  have hend : spaceEnd < m.tallyBase + 33280 ↔ 0xFFFFFFFF < m.tallyBase + 33279 := by
    unfold spaceEnd
    omega
  unfold Image.tallyFails Image.TallyBad
  simp only [Bool.or_eq_true, bne_iff_ne, decide_eq_true_eq, hend, overlaps_iff_shares, blockSpan, tallySpan, or_assoc]

/-! ### The first entry that fails -/

/-- Where a test is a predicate, a table's reject names the lowest entry of which it holds. -/
theorem firstReject_of_first {n code : Nat} {fails : Fin n → Bool} {bad : Fin n → Prop}
    (hiff : ∀ i, fails i = true ↔ bad i) {i : Fin n} (hi : bad i) (hfirst : ∀ j, j < i → ¬ bad j) :
    firstReject code (((List.finRange n).filter fails).map Fin.val) = some { code := code, index := i } :=
  firstReject_lowest ((hiff i).mpr hi)
    fun j hj => Bool.eq_false_iff.mpr fun hfail => hfirst j hj ((hiff j).mp hfail)

theorem firstReject_eq_none_iff {n code : Nat} {fails : Fin n → Bool} {bad : Fin n → Prop}
    (hiff : ∀ i, fails i = true ↔ bad i) :
    firstReject code (((List.finRange n).filter fails).map Fin.val) = none ↔ ∀ i, ¬ bad i := by
  rw [firstReject_none, List.map_eq_nil_iff, List.filter_eq_nil_iff]
  simp [hiff]

theorem filter_range_eq (n : Nat) (fails : Nat → Bool) :
    (List.range n).filter fails = ((List.finRange n).filter (fun i : Fin n => fails i)).map Fin.val := by
  rw [← List.map_coe_finRange_eq_range, List.filter_map]
  rfl

theorem Image.HeaderBad.lt {m : Image} {w : Nat} (h : m.HeaderBad w) : w < 18 := by
  unfold Image.HeaderBad at h
  omega

/-- A header word fails step 2, as an entry of a table. -/
theorem Image.headerFails_iff_entry (m : Image) (w : Fin 18) : m.headerFails w = true ↔ m.HeaderBad w :=
  m.headerFails_iff w

/-- The check sum of words 0 to 1351, with the command word, its argument and the clock word as zero (R152). -/
def Image.CheckBad (m : Image) : Prop :=
  onesSum ((List.range 1352).map (fun i => if 2 ≤ i ∧ i ≤ 4 then 0 else m.get i)) ≠ 65535

theorem Image.spanValid_summed {m : Image} (hwf : m.wf = true) : spanValid m.summed = false ↔ m.CheckBad := by
  rw [spanValid, m.onesSum_summed hwf, beq_eq_false_iff_ne]
  rfl

theorem Image.rejectHeader_of_magic {m : Image} (h : m.get 0 ≠ 0x57A4C0DE#32) :
    m.rejectHeader = some { code := 1, index := 0 } := if_pos h

theorem Image.rejectHeader_of_check {m : Image} (hwf : m.wf = true) (hmagic : ¬ m.get 0 ≠ 0x57A4C0DE#32)
    (h : m.CheckBad) : m.rejectHeader = some { code := 2, index := 0 } := by
  refine (if_neg hmagic).trans (if_pos ?_)
  rw [(Image.spanValid_summed hwf).mpr h]
  rfl

theorem Image.rejectHeader_of_valid {m : Image} (hwf : m.wf = true) (hmagic : ¬ m.get 0 ≠ 0x57A4C0DE#32)
    (h : ¬ m.CheckBad) : m.rejectHeader =
      firstReject 3 (((List.finRange 18).filter (fun i : Fin 18 => m.headerFails i)).map Fin.val) := by
  rw [← filter_range_eq]
  refine (if_neg hmagic).trans (if_neg ?_)
  rw [← Image.spanValid_summed hwf] at h
  simpa using h

/-- The reject of a table is the next one where the tables before it are clear. -/
theorem Image.validate_eq (m : Image) (block : Nat) : m.validate block =
    ((m.rejectHeader.or <| (firstReject 4 (((List.finRange 4).filter (m.windowFails block)).map Fin.val)).or <|
      (firstReject 5 (((List.finRange 16).filter (m.matcherFails block)).map Fin.val)).or <|
      (firstReject 6 (((List.finRange 16).filter (m.lineFails block)).map Fin.val)).or <|
      (firstReject 7 (((List.finRange 256).filter m.channelFails).map Fin.val)).or <|
      if m.tallyFails block then some { code := 8, index := 0 } else none)) := by
  unfold Image.validate
  simp only [Option.orElse_eq_orElse, Option.orElse_eq_or]
  rfl

theorem Image.clear_of_validate {m : Image} {block : Nat} (h : m.validate block = none) :
    m.get 0 = 0x57A4C0DE#32 ∧ (∀ i, ¬ m.WindowBad block i) ∧ (∀ i, ¬ m.MatcherBad block i) ∧
    (∀ n, ¬ m.LineBad block n) ∧ (∀ e, ¬ m.ChannelBad e) ∧ ¬ m.TallyBad block := by
  rw [m.validate_eq, Option.or_eq_none_iff, Option.or_eq_none_iff, Option.or_eq_none_iff, Option.or_eq_none_iff,
    Option.or_eq_none_iff, firstReject_eq_none_iff (m.windowFails_iff block),
    firstReject_eq_none_iff (m.matcherFails_iff block), firstReject_eq_none_iff (m.lineFails_iff block),
    firstReject_eq_none_iff m.channelFails_iff] at h
  obtain ⟨hheader, hwindows, hmatchers, hlines, hchannels, htally⟩ := h
  refine ⟨?_, hwindows, hmatchers, hlines, hchannels, ?_⟩
  · by_contra hmagic
    rw [Image.rejectHeader_of_magic hmagic] at hheader
    contradiction
  · rw [← m.tallyFails_iff block]
    simpa using htally

/-- With no line bad, the fields of the lines in use: rings apart and inside the address space, parents FURNACEs. -/
theorem Image.line_of_not_bad {m : Image} {block : Nat} {n : Fin 16} (hgood : ¬ m.LineBad block n)
    (hkind : m.kind n ≠ .none) :
    m.ringBase n % 64 = 0 ∧ m.ringBase n + 64 * (m.ringSize n + 1) ≤ 2 ^ 32 ∧
    ¬ Shares (m.ringBase n) (64 * (m.ringSize n + 1)) block 8448 ∧
    ¬ Shares (m.ringBase n) (64 * (m.ringSize n + 1)) m.tallyBase 33280 ∧
    (∀ k : Fin 16, k ≠ n → m.kind k ≠ .none →
      ¬ Shares (m.ringBase n) (64 * (m.ringSize n + 1)) (m.ringBase k) (64 * (m.ringSize k + 1))) ∧
    (∀ p, m.parent n = some p → m.kind p = .furnace) ∧
    (m.kind n = .furnace → (m.children n).length ≤ 7) := by
  have hcode : m.lineCode n = 1 ∨ m.lineCode n = 2 := (kindOf_ne_none_iff _).mp hkind
  have hnonzero : m.lineCode n ≠ 0 := by omega
  replace hgood := not_and.mp hgood hnonzero
  simp only [not_or, not_and, not_lt, not_not, not_exists, ne_eq] at hgood
  obtain ⟨-, hparent, hchildren, -, -, hbase, -, hend, hrings, hblock, htally⟩ := hgood
  refine ⟨hbase, hend, hblock, htally, fun k hk hkind' => hrings k hk ?_, fun p hp => ?_, fun hfurnace => ?_⟩
  · have := (kindOf_ne_none_iff _).mp hkind'
    omega
  · rw [m.parent_eq] at hp
    split at hp
    case isTrue h =>
      obtain ⟨_, hflag⟩ := h
      cases hp
      exact (kindOf_eq_furnace_iff _).mpr (hparent hflag).2
    case isFalse => contradiction
  · rw [m.children_eq]
    exact hchildren ((kindOf_eq_furnace_iff _).mp hfurnace)

/-- With no channel entry bad, an enabled entry's line is in use and no lower entry holds its channel number. -/
theorem Image.channel_of_not_bad {m : Image} {e : Fin 256} (hgood : ¬ m.ChannelBad e)
    (henabled : m.channelEnabled e = true) : m.kind (m.channel e).line ≠ .none ∧
    ∀ k, k < e → ¬ (m.channelEnabled k = true ∧ (m.channel k).channel = (m.channel e).channel) := by
  replace hgood := not_and.mp hgood henabled
  simp only [not_or, not_exists] at hgood
  obtain ⟨hline, -, -, -, -, -, -, -, -, hlower⟩ := hgood
  exact ⟨(kindOf_ne_none_iff _).mpr (or_iff_not_and_not.mpr hline), fun k hk hbad => hlower k ⟨hk, hbad.1, hbad.2⟩⟩

/-- A validated setup keeps its entries and its spans apart (R151). -/
theorem Image.apart_of_validate {m : Image} {block : Nat} (h : m.validate block = none) :
    m.get 0 = 0x57A4C0DE#32 ∧
    (∀ e e' : Fin 256, m.channelEnabled e = true → m.channelEnabled e' = true →
      (m.channel e).channel = (m.channel e').channel → e = e') ∧
    (∀ e : Fin 256, m.channelEnabled e = true → m.entryOf (m.channel e).channel = some e) ∧
    (∀ e : Fin 256, m.channelEnabled e = true → m.kind (m.channel e).line ≠ .none) ∧
    (∀ i : Fin 4, (m.window i).enabled = true →
      ¬ Shares (m.window i).base (4 * (m.window i).size) block 8448 ∧
      ¬ Shares (m.window i).base (4 * (m.window i).size) m.tallyBase 33280 ∧
      (∀ j : Fin 4, j ≠ i → (m.window j).enabled = true →
        ¬ Shares (m.window i).base (4 * (m.window i).size) (m.window j).base (4 * (m.window j).size)) ∧
      ∀ n : Fin 16, m.kind n ≠ .none →
        ¬ Shares (m.window i).base (4 * (m.window i).size) (m.ringBase n) (64 * (m.ringSize n + 1))) ∧
    (∀ n : Fin 16, m.kind n ≠ .none →
      m.ringBase n % 64 = 0 ∧ m.ringBase n + 64 * (m.ringSize n + 1) ≤ 2 ^ 32 ∧
      ¬ Shares (m.ringBase n) (64 * (m.ringSize n + 1)) block 8448 ∧
      ¬ Shares (m.ringBase n) (64 * (m.ringSize n + 1)) m.tallyBase 33280 ∧
      (∀ k : Fin 16, k ≠ n → m.kind k ≠ .none →
        ¬ Shares (m.ringBase n) (64 * (m.ringSize n + 1)) (m.ringBase k) (64 * (m.ringSize k + 1))) ∧
      (∀ p, m.parent n = some p → m.kind p = .furnace) ∧
      (m.kind n = .furnace → (m.children n).length ≤ 7)) ∧
    m.tallyBase % 32 = 0 ∧ m.tallyBase + 33280 ≤ 2 ^ 32 ∧ ¬ Shares m.tallyBase 33280 block 8448 := by
  obtain ⟨hmagic, hwindows, -, hlines, hchannels, htally⟩ := Image.clear_of_validate h
  simp only [Image.TallyBad, not_or, not_lt, not_not, ne_eq] at htally
  obtain ⟨halign, hend, hblock⟩ := htally
  refine ⟨hmagic, fun e e' he he' hsame => ?_, fun e he => ?_, fun e he =>
    (Image.channel_of_not_bad (hchannels e) he).1, fun i hi => ?_, fun n hn => Image.line_of_not_bad (hlines n) hn,
    halign, by omega, hblock⟩
  · rcases lt_trichotomy e e' with hlt | heq | hgt
    · exact absurd ⟨he, hsame⟩ ((Image.channel_of_not_bad (hchannels e') he').2 e hlt)
    · exact heq
    · exact absurd ⟨he', hsame.symm⟩ ((Image.channel_of_not_bad (hchannels e) he).2 e' hgt)
  · exact (m.entryOf_eq_some_iff _ e).mpr ⟨⟨he, rfl⟩, (Image.channel_of_not_bad (hchannels e) he).2⟩
  · have hgood := not_and.mp (hwindows i) hi
    simp only [not_or, not_exists, not_and] at hgood
    obtain ⟨-, -, -, -, -, hothers, hblock', htally', hrings, -⟩ := hgood
    exact ⟨hblock', htally', hothers, fun n hn => hrings n ((kindOf_ne_none_iff _).mp hn)⟩

/-- Settles O52: each field and test is read off the block, and the reject is that of the first table that fails. -/
theorem validSetupKeepsEntriesAndSpansApart : Obligations.ValidSetupKeepsEntriesAndSpansApart := by
  unfold Obligations.ValidSetupKeepsEntriesAndSpansApart
  refine ⟨?_, fun s => ⟨State.cfg_of_working, State.cfg_of_resting⟩, onesSum_carry, ?_, ?_⟩
  · intro m field flag
    refine ⟨rfl, rfl, rfl, by simp [Image.refuses], rfl, rfl, rfl, rfl,
      fun i => ⟨rfl, rfl, rfl, by simp [Image.automatic, Image.counterMode, bits, field]⟩, rfl, fun k hk => ?_,
      rfl, rfl, rfl, m.window_eq, fun i => (m.matcher_eq i).trans ?_, fun n => ⟨?_, ?_, rfl, rfl, rfl, rfl, rfl,
        m.isHead_iff n, m.mem_members n, m.children_eq n⟩,
      fun e => ⟨m.channelEnabled_eq e, (m.channel_eq e).trans ?_⟩, fun e c => ?_, fun n => rfl⟩
    · simp [Image.alertMask, hk, flag]
    · unfold actionOf; rfl
    · unfold Image.kind kindOf; rfl
    · exact m.parent_eq n
    · unfold channelKindOf; rfl
    · rw [m.entryOf_eq_some_iff, and_assoc]
  · intro m block hwf
    dsimp only
    rw [m.validate_eq]
    refine ⟨fun hmagic => ?_, fun hmagic hcheck => ?_, fun hmagic hcheck => ?_⟩
    · rw [Image.rejectHeader_of_magic hmagic]
      rfl
    · rw [Image.rejectHeader_of_check hwf hmagic hcheck]
      rfl
    rw [Image.rejectHeader_of_valid hwf hmagic hcheck]
    refine ⟨fun w hbad hfirst => ?_, fun hheader => ?_⟩
    · have hw : w < 18 := Image.HeaderBad.lt hbad
      rw [firstReject_of_first (i := ⟨w, hw⟩) m.headerFails_iff_entry hbad fun v hv => hfirst v hv]
      rfl
    rw [(firstReject_eq_none_iff m.headerFails_iff_entry).mpr fun w => hheader w, Option.none_or]
    refine ⟨fun i hbad hfirst => ?_, fun hwindows => ?_⟩
    · rw [firstReject_of_first (m.windowFails_iff block) hbad hfirst]
      rfl
    rw [(firstReject_eq_none_iff (m.windowFails_iff block)).mpr hwindows, Option.none_or]
    refine ⟨fun i hbad hfirst => ?_, fun hmatchers => ?_⟩
    · rw [firstReject_of_first (m.matcherFails_iff block) hbad hfirst]
      rfl
    rw [(firstReject_eq_none_iff (m.matcherFails_iff block)).mpr hmatchers, Option.none_or]
    refine ⟨fun n hbad hfirst => ?_, fun hlines => ?_⟩
    · rw [firstReject_of_first (m.lineFails_iff block) hbad hfirst]
      rfl
    rw [(firstReject_eq_none_iff (m.lineFails_iff block)).mpr hlines, Option.none_or]
    refine ⟨fun e hbad hfirst => ?_, fun hchannels => ?_⟩
    · rw [firstReject_of_first m.channelFails_iff hbad hfirst]
      rfl
    rw [(firstReject_eq_none_iff m.channelFails_iff).mpr hchannels, Option.none_or]
    exact ⟨fun hbad => if_pos ((m.tallyFails_iff block).mpr hbad),
      fun hgood => if_neg (mt (m.tallyFails_iff block).mp hgood)⟩
  · intro m block hvalid
    obtain ⟨hmagic, hentry, hfound, hline, hwindows, hrings, halign, hend, htally⟩ := Image.apart_of_validate hvalid
    exact ⟨hmagic, hentry, hfound, hline,
      fun i hi =>
        have ⟨hblock, htally, hothers, hrings⟩ := hwindows i hi
        ⟨not_exists.mp hblock, not_exists.mp htally, fun j hj he => not_exists.mp (hothers j hj he),
          fun n hn => not_exists.mp (hrings n hn)⟩,
      fun n hn =>
        have ⟨hbase, hend, hblock, htally, hothers, hparent, hchildren⟩ := hrings n hn
        ⟨hbase, hend, not_exists.mp hblock, not_exists.mp htally,
          fun k hk he => not_exists.mp (hothers k hk he), hparent, hchildren⟩,
      halign, hend, not_exists.mp htally⟩

end Sys2Proof.Machine
end

section
/-! SUPPORT. The upstream port: read hold, passthrough answers, and the deliveries of a notice (R4, R10, R144, R148). -/

namespace Sys2Proof.Machine

/-! ### The read hold (R10) -/

theorem State.readsLatchedWord_iff (s : State) (a len : Nat) : s.readsLatchedWord a len = true ↔
    a ≤ s.setup.statusAddress ∧ s.setup.statusAddress < a + 4 * len := by
  rw [State.readsLatchedWord, Bool.and_eq_true, decide_eq_true_eq, decide_eq_true_eq]

theorem State.presentRead_malformed {a : Nat} {es : List (BitVec 4)} (s : State) (h : 2 ^ 32 < a + 4 * es.length) :
    s.presentRead a es = { s with pass := { s.pass with lastAnswer := some .error } } := if_pos (decide_eq_true h)

theorem malformed_eq_false {a len : Nat} (h : ¬ 2 ^ 32 < a + 4 * len) : malformed a len = false := decide_eq_false h

theorem State.presentRead_held {a : Nat} {es : List (BitVec 4)} {s : State} (hfit : ¬ 2 ^ 32 < a + 4 * es.length)
    (hhold : s.alerts.readHold = true) (hreads : s.readsLatchedWord a es.length = true) :
    s.presentRead a es = { s with pass := { s.pass with heldRead := some (a, es) } } := by
  simp [State.presentRead, malformed_eq_false hfit, hhold, hreads]

theorem State.presentRead_free {a : Nat} {es : List (BitVec 4)} {s : State} (hfit : ¬ 2 ^ 32 < a + 4 * es.length)
    (hfree : ¬ (s.alerts.readHold = true ∧ s.readsLatchedWord a es.length = true)) :
    s.presentRead a es = { s with pass := { s.pass with slot := some (.read a es) } } := by
  rw [← Bool.and_eq_true] at hfree
  simp [State.presentRead, malformed_eq_false hfit, Bool.eq_false_of_not_eq_true hfree, State.acceptRead]

/-- Settles O20: the three outcomes of a read presented, and the release of a waiting one. -/
theorem upstreamReadWaitsOnTheReadHold : Obligations.UpstreamReadWaitsOnTheReadHold := by
  unfold Obligations.UpstreamReadWaitsOnTheReadHold
  refine ⟨?_, ?_⟩
  · intro a es s hwf hopen
    dsimp only
    rw [exec_upstreamRead hwf, ← s.readsLatchedWord_iff]
    exact ⟨fun hbad => stepWhen_of_eq hopen (s.presentRead_malformed hbad),
      fun hfit hwaits => stepWhen_of_eq hopen (State.presentRead_held hfit hwaits.1 hwaits.2),
      fun hfit hfree => stepWhen_of_eq hopen (State.presentRead_free hfit hfree)⟩
  · intro a es s hsteady hheld hclear
    have hcan : (s.steady && s.pass.heldRead.isSome && !s.alerts.readHold) = true := by simp [hsteady, hheld, hclear]
    have hrelease : s.releaseRead = { s with pass := { s.pass with heldRead := none, slot := some (.read a es) } } := by
      rw [State.releaseRead, hheld]
      rfl
    exact stepWhen_of_eq hcan hrelease

/-! ### Passthrough answers (R1, R4) -/

theorem State.passthroughAnswered_of_fits {s : State} {t : Txn} {answer : PassAnswer} (hsteady : s.steady = true)
    (hport : s.pass.port = .passthrough) (hslot : s.pass.slot = some t) (hfits : t.fits answer = true) :
    (s.steady && s.passthroughAnswered answer) = true := by
  simp [State.passthroughAnswered, hsteady, hport, hslot, hfits]

theorem State.returnedLatchedWord_eq (s : State) (a : Nat) (data : List Word) : s.returnedLatchedWord a data =
    if a ≤ s.setup.statusAddress ∧ s.setup.statusAddress < a + 4 * data.length
    then data[(s.setup.statusAddress - a) / 4]? else none := by
  simp only [State.returnedLatchedWord, s.readsLatchedWord_iff]

theorem State.answerPassthrough_read {s : State} {a : Nat} {es : List (BitVec 4)} (data : List Word)
    (hslot : s.pass.slot = some (.read a es)) : s.answerPassthrough (.ok data) = { s with
      pass := { s.pass with
        slot := none, port := .free, lastAnswer := some (.ok data),
        observation :=
          if a ≤ s.setup.statusAddress ∧ s.setup.statusAddress < a + 4 * data.length
          then data[(s.setup.statusAddress - a) / 4]? else none } } := by
  simp only [State.answerPassthrough, hslot, s.returnedLatchedWord_eq]

/-- An answer to a write, and an ERROR, leave no observation. -/
theorem State.answerPassthrough_unobserved {s : State} {answer : PassAnswer}
    (h : answer = .error ∨ ∃ a ws, s.pass.slot = some (.write a ws)) : s.answerPassthrough answer = { s with
      pass := { s.pass with slot := none, port := .free, lastAnswer := some answer, observation := none } } := by
  rcases h with rfl | ⟨a, ws, hslot⟩
  · simp [State.answerPassthrough]
  · simp only [State.answerPassthrough, hslot]

/-- Settles O26: the answer goes upstream, and an OK read leaves the latched-alert word where it returned it. -/
theorem passthroughResponseGoesUpstream : Obligations.PassthroughResponseGoesUpstream := by
  unfold Obligations.PassthroughResponseGoesUpstream
  refine ⟨fun s a es data hsteady hport hslot hlen => ?_, fun s a ws hsteady hport hslot => ?_,
    fun s txn hsteady hport hslot => ?_⟩
  · exact stepWhen_of_eq (State.passthroughAnswered_of_fits hsteady hport hslot (by simp [Txn.fits, hlen]))
      (State.answerPassthrough_read data hslot)
  · exact stepWhen_of_eq (State.passthroughAnswered_of_fits hsteady hport hslot rfl)
      (State.answerPassthrough_unobserved (.inr ⟨a, ws, hslot⟩))
  · exact stepWhen_of_eq (State.passthroughAnswered_of_fits hsteady hport hslot (by cases txn <;> rfl))
      (State.answerPassthrough_unobserved (.inl rfl))

/-! ### The capture (R144) -/

/-- A word of a notice merged into the image at the setup word it lies at. -/
def Setup.mergeWord (u : Setup) (m : Image) (c : Nat × WriteWord) : Image :=
  (u.wordNumber c.1).elim m (fun i => m.merge i c.2)

theorem Setup.capture_eq (u : Setup) (a : Nat) (ws : List WriteWord) :
    u.capture a ws = (addressed a ws).foldl u.mergeWord u.shadow := by
  unfold Setup.capture
  congr 1
  funext m c
  unfold Setup.mergeWord
  cases u.wordNumber c.1 <;> rfl

theorem Setup.mergeWord_of_some {u : Setup} {c : Nat × WriteWord} {i : Nat} (m : Image)
    (h : u.wordNumber c.1 = some i) : u.mergeWord m c = m.merge i c.2 := by
  rw [Setup.mergeWord, h]
  rfl

theorem Setup.mergeWord_of_none {u : Setup} {c : Nat × WriteWord} (m : Image) (h : u.wordNumber c.1 = none) :
    u.mergeWord m c = m := by
  rw [Setup.mergeWord, h]
  rfl

theorem Setup.mergeWord_wf (u : Setup) {m : Image} (hwf : m.wf = true) (c : Nat × WriteWord) :
    (u.mergeWord m c).wf = true := by
  cases hc : u.wordNumber c.1 with
  | none => rwa [Setup.mergeWord_of_none m hc]
  | some i =>
    rw [Setup.mergeWord_of_some m hc]
    exact Image.wf_merge _ _ _ hwf

theorem Setup.wordNumber_lt {u : Setup} {a i : Nat} (h : u.wordNumber a = some i) : i < 2048 := by
  simp only [Setup.wordNumber, Option.ite_none_right_eq_some, Option.some.injEq] at h
  omega

theorem Setup.mergeWord_self (u : Setup) {m : Image} (hwf : m.wf = true) {a i : Nat} (w : WriteWord) (ha : a % 4 = 0)
    (hi : i < 2048) (hat : a = u.blockAddress + 4 * i) : (u.mergeWord m (a, w)).get i = mergeBytes (m.get i) w := by
  rw [Setup.mergeWord_of_some m ((u.wordNumber_eq_some_iff ha hi).mpr hat)]
  exact Image.get_set_self _ _ _ hwf

theorem Setup.mergeWord_other (u : Setup) (m : Image) {a i : Nat} (w : WriteWord) (ha : a % 4 = 0)
    (hat : a ≠ u.blockAddress + 4 * i) : (u.mergeWord m (a, w)).get i = m.get i := by
  cases hj : u.wordNumber a with
  | none => rw [Setup.mergeWord_of_none m hj]
  | some j =>
    have hplace := (u.wordNumber_eq_some_iff ha (Setup.wordNumber_lt hj)).mp hj
    rw [Setup.mergeWord_of_some m hj]
    exact Image.get_set_other _ _ _ _ (by omega)

/-- Words of a notice that lie elsewhere leave setup word `i`. -/
theorem Setup.foldl_mergeWord_other (u : Setup) {i : Nat} (ws : List WriteWord) : ∀ (a : Nat) (m : Image), a % 4 = 0 →
    (∀ k, k < ws.length → a + 4 * k ≠ u.blockAddress + 4 * i) →
    ((addressed a ws).foldl u.mergeWord m).get i = m.get i := by
  induction ws with
  | nil => intro a m ha hno; rfl
  | cons w ws ih =>
    intro a m ha hno
    rw [addressed, List.foldl_cons, ih (a + 4) _ (by omega)]
    · exact u.mergeWord_other m w ha (hno 0 (Nat.succ_pos _))
    · intro k hk
      have := hno (k + 1) (Nat.succ_lt_succ hk)
      omega

/-- The word of a notice that lies at setup word `i` is merged into it. -/
theorem Setup.foldl_mergeWord_at (u : Setup) {i : Nat} (hi : i < 2048) (ws : List WriteWord) :
    ∀ (a k : Nat) (w : WriteWord) (m : Image), a % 4 = 0 → m.wf = true → ws[k]? = some w →
    a + 4 * k = u.blockAddress + 4 * i →
    ((addressed a ws).foldl u.mergeWord m).get i = mergeBytes (m.get i) w := by
  induction ws with
  | nil => intro a k w m ha hwf hk hat; simp at hk
  | cons w0 ws ih =>
    intro a k w m ha hwf hk hat
    rw [addressed, List.foldl_cons]
    cases k with
    | zero =>
      obtain rfl : w0 = w := by simpa using hk
      rw [u.foldl_mergeWord_other ws (a + 4) _ (by omega) (fun k _ => by omega)]
      exact u.mergeWord_self hwf w0 ha hi hat
    | succ k =>
      rw [ih (a + 4) k w _ (by omega) (u.mergeWord_wf hwf _) (by simpa using hk) (by omega),
        u.mergeWord_other m w0 ha (by omega)]

/-- Bits of a mask made of bytes. -/
theorem byteMask_getLsbD (e0 e1 e2 e3 : Bool) {b : Nat} (hb : b < 32) :
    ((if e0 then 0x000000FF#32 else 0) ||| (if e1 then 0x0000FF00#32 else 0) |||
      (if e2 then 0x00FF0000#32 else 0) ||| (if e3 then 0xFF000000#32 else 0)).getLsbD b =
    (match b / 8 with | 0 => e0 | 1 => e1 | 2 => e2 | _ => e3) := by
  revert b e0 e1 e2 e3
  decide

theorem mergeBytes_getLsbD (old : Word) (w : WriteWord) {b : Nat} (hb : b < 32) : (mergeBytes old w).getLsbD b =
    if w.enables.getLsbD (b / 8) then w.data.getLsbD b else old.getLsbD b := by
  have hmask := byteMask_getLsbD (w.enables.getLsbD 0) (w.enables.getLsbD 1) (w.enables.getLsbD 2)
    (w.enables.getLsbD 3) hb
  have hselect : (match b / 8 with
      | 0 => w.enables.getLsbD 0 | 1 => w.enables.getLsbD 1 | 2 => w.enables.getLsbD 2 | _ => w.enables.getLsbD 3) =
      w.enables.getLsbD (b / 8) := by
    rcases (by omega : b / 8 = 0 ∨ b / 8 = 1 ∨ b / 8 = 2 ∨ b / 8 = 3) with h | h | h | h <;> simp only [h]
  rw [hselect] at hmask
  unfold mergeBytes
  simp only [BitVec.getLsbD_or, BitVec.getLsbD_and, BitVec.getLsbD_not] at hmask ⊢
  rw [hmask]
  cases w.enables.getLsbD (b / 8) <;> simp [hb]

/-- Settles O27: the words of the notice are merged one by one, each at the setup word it lies at. -/
theorem setupCaptureMergesEnabledBytes : Obligations.SetupCaptureMergesEnabledBytes := by
  unfold Obligations.SetupCaptureMergesEnabledBytes
  refine ⟨fun s n hreset hnotice hdue ha hwf => ?_, fun old w b hb => mergeBytes_getLsbD old w hb⟩
  have hcapture : s.capture = { s with
      pass := { s.pass with
        notice := { n with
          captureDue := false,
          commandDue := n.commandDue && s.setup.part != Part.fetching &&
            (s.setup.capture n.address n.words).get 2 != s.setup.lastCommand }.settled },
      setup := { s.setup with shadow := s.setup.capture n.address n.words } } := by
    rw [State.capture, hnotice, Bool.and_assoc]
    rfl
  obtain ⟨m, hm⟩ := stepWhen_of_eq (can := !s.inReset && s.captureReady)
    (by simp [hreset, State.captureReady, hnotice, hdue]) hcapture
  refine ⟨m, _, hm, fun i k w hi hk hat => ?_, fun i hno => ?_⟩
  · rw [Setup.capture_eq]
    exact s.setup.foldl_mergeWord_at hi n.words n.address k w _ ha hwf hk hat
  · rw [Setup.capture_eq]
    exact s.setup.foldl_mergeWord_other n.words n.address _ ha hno

/-! ### The generation test (R148, R150) -/

theorem Image.get_below (m : Image) (k i : Nat) : (m.below k).get i = if i < k then m.get i else 0 := by
  induction m with
  | nil => exact (ite_self _).symm
  | cons c rest ih =>
    obtain ⟨j, w⟩ := c
    unfold Image.below at ih ⊢
    by_cases hj : j < k
    · rw [List.filter_cons_of_pos (by simpa using hj)]
      by_cases hi : i = j
      · simp [Image.get, hi, hj]
      · simpa [Image.get, hi] using ih
    · rw [List.filter_cons_of_neg (by simpa using hj), ih]
      by_cases hi : i = j
      · simp [hi, hj]
      · simp [Image.get, hi]

theorem State.testGeneration_starts {s : State} (h : s.setup.part = .unset ∨
    (s.setup.part = .active ∧ s.setup.generation ≠ some (s.setup.shadow.get 1))) : s.testGeneration = { s with
      setup := { s.setup with
        part := .applying .validate, candidate := some (s.setup.shadow.below 1352) },
      alerts := { s.alerts with owed := { s.alerts.owed with realTime := true } } } := by
  rcases h with hpart | ⟨hpart, hnew⟩
  · rw [State.testGeneration, hpart]
    rfl
  · rw [State.testGeneration, hpart]
    exact if_neg hnew

theorem State.testGeneration_rests {s : State} (h : s.setup.part = .fetching ∨
    (s.setup.part = .active ∧ s.setup.generation = some (s.setup.shadow.get 1))) : s.testGeneration = s := by
  rcases h with hpart | ⟨hpart, hsame⟩
  · rw [State.testGeneration, hpart]
  · rw [State.testGeneration, hpart]
    exact if_pos hsame

theorem State.testGeneration_applying {s : State} {p : Phase} {c : Image} (hp : s.setup.part = .applying p)
    (hc : s.setup.candidate = some c) : s.testGeneration = { s with
      setup := { s.setup with pendingApply := decide (s.setup.shadow.get 1 ≠ c.get 1) } } := by
  rw [State.testGeneration, hp, Setup.candidateGeneration, hc]
  simp [Image.generation, bne, Bool.beq_eq_decide_eq]

/-- Settles O28: the generation test by part state, on the state whose notice has delivered it. -/
theorem generationWriteStartsOrPendsAnApply : Obligations.GenerationWriteStartsOrPendsAnApply := by
  unfold Obligations.GenerationWriteStartsOrPendsAnApply
  refine ⟨Image.get_below, ?_⟩
  intro s n hreset hnotice hdue hcapture hclock settled starts
  have hcan : (!s.inReset && s.generationReady) = true := by
    simp [hreset, State.generationReady, hnotice, hdue, hcapture, hclock]
  have htake : s.takeGeneration = (s.setNotice { n with generationDue := false }).testGeneration := by
    rw [State.takeGeneration, hnotice]
  have heffect {t : State} (h : (s.setNotice { n with generationDue := false }).testGeneration = t) :=
    stepWhen_of_eq hcan (htake.trans h)
  refine ⟨fun hstarts => ?_, fun hrests => ?_, fun p c hp hc => ?_⟩
  · refine heffect (State.testGeneration_starts ?_)
    exact hstarts
  · refine heffect (State.testGeneration_rests ?_)
    exact hrests
  · exact heffect (State.testGeneration_applying (s := s.setNotice _) hp hc)

end Sys2Proof.Machine
end

section
/-! SUPPORT. The guard, and the two ends of a hold (R7, R8, R11, R12, R28). -/

namespace Sys2Proof.Machine

/-! ### The guard (R11, R12) -/

theorem Image.refuses_iff (m : Image) : m.refuses = true ↔ m.get 6 = 1 := beq_iff_eq

theorem State.touchesGuard_iff (s : State) (a len : Nat) :
    s.touchesGuard a len = true ↔ ∃ k, k < len ∧ s.guarded (a + 4 * k) = true := by
  simp only [State.touchesGuard, List.any_eq_true, List.mem_range]

/-- The guard region list is a matter of the setup alone. -/
theorem State.touchesGuard_of_setup {s u : State} (h : u.setup = s.setup) (a len : Nat) :
    u.touchesGuard a len = s.touchesGuard a len := by
  have hguarded : u.guarded = s.guarded := by
    funext b
    simp only [State.guarded, h]
  simp only [State.touchesGuard, hguarded]

/-- The three outcomes of an accepted write burst. -/
theorem State.acceptWrite_eq (a : Nat) (ws : List WriteWord) (s : State) : s.acceptWrite a ws =
    if s.touchesGuard a ws.length = false then { s with pass := { s.pass with slot := some (.write a ws) } }
    else if s.cfg.get 6 = 1 then
      { s with pass := { s.pass with lastAnswer := some .error }, alerts := s.alerts.latch .guard }
    else { s with pass := { s.pass with slot := some (.write a ws) }, alerts := s.alerts.latch .guard } := by
  cases htouch : s.touchesGuard a ws.length with
  | false => exact s.acceptWrite_free a ws htouch
  | true =>
    rw [s.acceptWrite_touching a ws htouch]
    by_cases hrefuse : s.cfg.get 6 = 1
    · simp only [s.cfg.refuses_iff, hrefuse, if_true, Bool.true_eq_false, if_false]
    · simp only [s.cfg.refuses_iff, hrefuse, Bool.true_eq_false, if_false]

theorem State.acceptWrite_pass (a : Nat) (ws : List WriteWord) (s : State) : (s.acceptWrite a ws).pass = { s.pass with
    slot := if s.touchesGuard a ws.length = true ∧ s.cfg.get 6 = 1 then s.pass.slot else some (.write a ws),
    lastAnswer :=
      if s.touchesGuard a ws.length = true ∧ s.cfg.get 6 = 1 then some .error else s.pass.lastAnswer } := by
  cases htouch : s.touchesGuard a ws.length with
  | false =>
    rw [s.acceptWrite_free a ws htouch]
    simp
  | true =>
    rw [s.acceptWrite_touching a ws htouch]
    by_cases hrefuse : s.cfg.get 6 = 1
    · simp only [s.cfg.refuses_iff, hrefuse, and_self, if_true]
    · simp only [s.cfg.refuses_iff, hrefuse, and_false, if_false]

theorem State.acceptWrite_alerts (a : Nat) (ws : List WriteWord) (s : State) : (s.acceptWrite a ws).alerts =
    if s.touchesGuard a ws.length = true then s.alerts.latch .guard else s.alerts := by
  cases htouch : s.touchesGuard a ws.length with
  | false =>
    rw [s.acceptWrite_free a ws htouch]
    simp
  | true =>
    rw [s.acceptWrite_touching a ws htouch]
    simp

/-! ### Partial records abandoned (R28) -/

/-- A window whose partial record, if any, is abandoned. -/
def WindowState.abandoned (w : WindowState) : WindowState :=
  if w.partialRecord.isSome then { w with partialRecord := none, timer := none } else w

theorem WindowState.abandoned_partialRecord (w : WindowState) : w.abandoned.partialRecord = none := by
  unfold WindowState.abandoned
  split
  case isTrue => rfl
  case isFalse h => exact Option.not_isSome_iff_eq_none.mp h

theorem WindowState.abandoned_inject (w : WindowState) : w.abandoned.inject = w.inject := by
  unfold WindowState.abandoned
  split <;> rfl

theorem WindowState.abandoned_timer {w : WindowState} (h : w.partialRecord.isSome = true) :
    w.abandoned.timer = none := by
  rw [WindowState.abandoned, if_pos h]

/-- One window's part in a spill entry. -/
def Desk.abandonWindow (m : Image) (x : Desk) (i : Fin 4) : Desk :=
  if (x.window i).partialRecord.isSome then (x.emptyBuffer i).report m .spilled else x

theorem Desk.abandonAll_eq (m : Image) (x : Desk) :
    x.abandonAll m = (List.finRange 4).foldl (Desk.abandonWindow m) x := rfl

theorem Desk.abandonWindow_alerts (m : Image) (x : Desk) (i : Fin 4) : (x.abandonWindow m i).alerts =
    if (x.window i).partialRecord.isSome then x.alerts.report m .spilled else x.alerts := by
  unfold Desk.abandonWindow
  split <;> rfl

theorem Desk.abandonWindow_self (m : Image) (x : Desk) (i : Fin 4) :
    (x.abandonWindow m i).window i = (x.window i).abandoned := by
  unfold Desk.abandonWindow WindowState.abandoned
  split
  case isTrue => exact set_get_self _ _ _
  case isFalse => rfl

theorem Desk.abandonWindow_other (m : Image) (x : Desk) {i j : Fin 4} (h : j ≠ i) :
    (x.abandonWindow m i).window j = x.window j := by
  unfold Desk.abandonWindow
  split
  case isTrue => exact set_get_other _ _ _ _ h
  case isFalse => rfl

theorem Desk.abandonWindow_intake (m : Image) (x : Desk) (i : Fin 4) :
    { (x.abandonWindow m i).intake with windows := x.intake.windows } = x.intake := by
  unfold Desk.abandonWindow
  split <;> rfl

theorem Desk.foldl_abandon_intake (m : Image) (l : List (Fin 4)) : ∀ x : Desk,
    { (l.foldl (Desk.abandonWindow m) x).intake with windows := x.intake.windows } = x.intake := by
  induction l with
  | nil => exact fun x => rfl
  | cons i l ih =>
    intro x
    have hrest := ih (x.abandonWindow m i)
    have hhead := x.abandonWindow_intake m i
    rw [← hrest] at hhead
    exact hhead

theorem Desk.foldl_abandon_other (m : Image) {j : Fin 4} {l : List (Fin 4)} : ∀ x : Desk, j ∉ l →
    (l.foldl (Desk.abandonWindow m) x).window j = x.window j := by
  induction l with
  | nil => exact fun x _ => rfl
  | cons i l ih =>
    intro x hj
    obtain ⟨hne, hj⟩ := List.ne_and_not_mem_of_not_mem_cons hj
    exact (ih _ hj).trans (x.abandonWindow_other m hne)

theorem Desk.foldl_abandon_window (m : Image) {j : Fin 4} {l : List (Fin 4)} : ∀ x : Desk, l.Nodup → j ∈ l →
    (l.foldl (Desk.abandonWindow m) x).window j = (x.window j).abandoned := by
  induction l with
  | nil => exact fun _ _ h => absurd h List.not_mem_nil
  | cons i l ih =>
    intro x hnodup hj
    obtain ⟨hi, hnodup⟩ := List.nodup_cons.mp hnodup
    rw [List.foldl_cons]
    rcases List.mem_cons.mp hj with rfl | hj
    · rw [Desk.foldl_abandon_other m _ hi, Desk.abandonWindow_self]
    · rw [ih _ hnodup hj, Desk.abandonWindow_other m x (ne_of_mem_of_not_mem hj hi)]

/-- Each partial record abandoned is one SPILLED. -/
theorem Desk.foldl_abandon_alerts (m : Image) {l : List (Fin 4)} : ∀ x : Desk, l.Nodup →
    (l.foldl (Desk.abandonWindow m) x).alerts =
      (l.filter (fun i => (x.window i).partialRecord.isSome)).foldl (fun b _ => b.report m .spilled) x.alerts := by
  induction l with
  | nil => exact fun x _ => rfl
  | cons i l ih =>
    intro x hnodup
    obtain ⟨hi, hnodup⟩ := List.nodup_cons.mp hnodup
    have hrest : l.filter (fun j => ((x.abandonWindow m i).window j).partialRecord.isSome) =
        l.filter (fun j => (x.window j).partialRecord.isSome) :=
      List.filter_congr fun j hj => by rw [x.abandonWindow_other m (ne_of_mem_of_not_mem hj hi)]
    rw [List.foldl_cons, ih _ hnodup, hrest, Desk.abandonWindow_alerts, List.filter_cons]
    split <;> rfl

theorem Alerts.has_foldl_spilled {m : Image} {x : AlertBit} {α : Type} (l : List α) : ∀ a : Alerts, a.has x = true →
    (l.foldl (fun b _ => b.report m .spilled) a).has x = true := by
  induction l with
  | nil => exact fun a h => h
  | cons i l ih =>
    intro a h
    refine ih _ ?_
    rw [Alerts.has_report, h]
    rfl

/-! ### The ends of a hold -/

theorem State.releaseHold_eq {s : State} {a : Nat} {ws : List WriteWord} (h : s.pass.heldWrite = some (a, ws)) :
    s.releaseHold = State.acceptWrite a ws { s with
      pass := { s.pass with heldWrite := none, holdTimer := none, releaseDue := false },
      alerts := s.alerts.fall s.cfg .holding } := by
  rw [State.releaseHold, h]
  rfl

/-- The state in which the waiting burst is accepted at a spill entry. -/
def State.spillEntered (s : State) : State :=
  let s1 := s.leaveHold
  let s2 := { s1 with pass := { s1.pass with spilling := true }, alerts := s1.alerts.rise .spilling }
  s2.withDesk (s2.desk.abandonAll s2.cfg)

theorem State.enterSpill_eq {s : State} {a : Nat} {ws : List WriteWord} (h : s.pass.heldWrite = some (a, ws)) :
    s.enterSpill = s.spillEntered.acceptWrite a ws := by
  rw [State.enterSpill, h]
  rfl

theorem State.spillEntered_alerts (s : State) : s.spillEntered.alerts =
    ((List.finRange 4).filter (fun i => (s.intake.windows[i]).partialRecord.isSome)).foldl
      (fun b _ => b.report s.cfg .spilled) ((s.alerts.fall s.cfg .holding).rise .spilling) :=
  Desk.foldl_abandon_alerts s.cfg ⟨s.intake, (s.alerts.fall s.cfg .holding).rise .spilling⟩ (List.nodup_finRange 4)

theorem State.spillEntered_window (s : State) (i : Fin 4) :
    s.spillEntered.intake.windows[i] = (s.intake.windows[i]).abandoned :=
  Desk.foldl_abandon_window s.cfg ⟨s.intake, (s.alerts.fall s.cfg .holding).rise .spilling⟩ (List.nodup_finRange 4)
    (List.mem_finRange i)

theorem State.spillEntered_intake (s : State) :
    { s.spillEntered.intake with windows := s.intake.windows } = s.intake :=
  Desk.foldl_abandon_intake s.cfg _ ⟨s.intake, (s.alerts.fall s.cfg .holding).rise .spilling⟩

/-- Settles O21: the burst that waited is accepted; at the hold limit every partial record is abandoned first. -/
theorem holdEndsByReleaseOrSpill : Obligations.HoldEndsByReleaseOrSpill := by
  unfold Obligations.HoldEndsByReleaseOrSpill
  refine ⟨fun a ws s => ⟨s.touchesGuard_iff a ws.length, s.acceptWrite_eq a ws⟩,
    fun a ws s hsteady hheld hdue => ?_, fun a ws s hsteady hheld htimer hdue => ?_⟩
  · exact stepWhen_of_eq (can := s.steady && s.pass.heldWrite.isSome && s.pass.releaseDue)
      (by simp [hsteady, hheld, hdue]) (State.releaseHold_eq hheld)
  · intro touches refused partials spilled
    have hsetup : s.spillEntered.setup = s.setup := rfl
    have htouch := State.touchesGuard_of_setup hsetup a ws.length
    have hintake := s.spillEntered_intake
    have hspill : spilled.has .spillEdge = true :=
      Alerts.has_foldl_spilled partials _ (by rw [Alerts.has_rise]; simp [Condition.bit])
    have hhold (hboth : s.cfg.holdEdgeSelect = 2) : spilled.has .holdEdge = true :=
      Alerts.has_foldl_spilled partials _ (by
        rw [Alerts.has_rise, Alerts.has_fall]
        simp [Condition.bit, Image.selectsBoth, hboth])
    have hkept {b : AlertBit} (h : spilled.has b = true) :
        (if touches then spilled.latch .guard else spilled).has b = true := by
      split
      case isTrue => rw [Alerts.has_latch, h]; rfl
      case isFalse => exact h
    obtain ⟨m, hm⟩ := stepWhen_of_eq (can := s.steady && s.pass.heldWrite.isSome && s.pass.holdTimer == some 0 &&
      !s.pass.releaseDue) (by simp [hsteady, hheld, htimer, hdue]) (State.enterSpill_eq hheld)
    have hcfg : s.spillEntered.cfg = s.cfg := rfl
    have hpass := s.spillEntered.acceptWrite_pass a ws
    have halerts := s.spillEntered.acceptWrite_alerts a ws
    have hentered : s.spillEntered.pass = { s.pass with heldWrite := none, holdTimer := none, spilling := true } :=
      congrArg (fun due => { s.pass with heldWrite := none, holdTimer := none, releaseDue := due, spilling := true })
        hdue.symm
    rw [htouch, hcfg, hentered] at hpass
    rw [htouch, s.spillEntered_alerts] at halerts
    have hhas {b : AlertBit} (h : (if touches then spilled.latch .guard else spilled).has b = true) :
        (s.spillEntered.acceptWrite a ws).alerts.has b = true := by
      rw [halerts]
      exact h
    have hwindow (i : Fin 4) :
        (s.spillEntered.acceptWrite a ws).intake.windows[i] = (s.intake.windows[i]).abandoned := by
      rw [State.acceptWrite_intake]
      exact s.spillEntered_window i
    refine ⟨_, m, hm, hpass, congrArg (fun b : Alerts => { b with mirror := m }) halerts,
      (congrArg Pass.heldWrite hpass :), (congrArg Pass.holdTimer hpass :), (congrArg Pass.spilling hpass :),
      fun i => ⟨?_, ?_, fun hpartial => ?_⟩, ?_, ?_, ?_, hhas (hkept hspill), fun hboth => hhas (hkept (hhold hboth)),
      fun hfree => ?_, fun hguard => hhas ?_, ?_, ?_, ?_, ?_, ?_, ?_, ?_⟩
    · exact (congrArg WindowState.partialRecord (hwindow i)).trans (WindowState.abandoned_partialRecord _)
    · exact (congrArg WindowState.inject (hwindow i)).trans (WindowState.abandoned_inject _)
    · exact (congrArg WindowState.timer (hwindow i)).trans (WindowState.abandoned_timer hpartial)
    · rw [State.acceptWrite_intake]
      exact (congrArg Intake.queue hintake :)
    · rw [State.acceptWrite_intake]
      exact (congrArg Intake.holdRequest hintake :)
    · rw [State.acceptWrite_intake]
      exact (congrArg Intake.accepted hintake :)
    · refine (congrArg Pass.slot hpass).trans ?_
      simp [hfree]
    · rw [if_pos hguard, Alerts.has_latch_self]
    · exact State.acceptWrite_channels _ _ _
    · exact State.acceptWrite_lines _ _ _
    · exact State.acceptWrite_writer _ _ _
    · exact State.acceptWrite_tally _ _ _
    · exact State.acceptWrite_setup _ _ _
    · exact State.acceptWrite_pending _ _ _
    · exact State.acceptWrite_inReset _ _ _

end Sys2Proof.Machine
end

section
/-! SUPPORT. The arbiter: requests, the choice among them, and the grants (R13 to R16). -/

namespace Sys2Proof.Machine

/-! ### Requests -/

/-- What the Tally Engine requests, as one condition after the other. -/
theorem State.tallyRequest_eq (s : State) : s.tallyRequest =
    if s.tally.queue = [] then none
    else if s.tally.state = .readWait then some .reserveRead
    else if s.tally.state = .writeWait ∧ s.tally.reservation ≠ none then some .conditionalWrite
    else none := by
  unfold State.tallyRequest
  split
  case h_1 hstate hqueue => simp [hstate, hqueue]
  case h_2 hstate hqueue => cases hres : s.tally.reservation <;> simp [hstate, hqueue]
  case h_3 hread hwrite =>
    cases hqueue : s.tally.queue with
    | nil => rfl
    | cons u rest =>
      have hnotRead : s.tally.state ≠ .readWait := fun h => hread u rest h hqueue
      have hnotWrite : s.tally.state ≠ .writeWait := fun h => hwrite u rest h hqueue
      simp [hnotRead, hnotWrite]

theorem State.tallyRequest_reserveRead_iff (s : State) :
    s.tallyRequest = some .reserveRead ↔ s.tally.state = .readWait ∧ s.tally.queue ≠ [] := by
  rw [s.tallyRequest_eq]
  split_ifs <;> simp_all

theorem State.tallyRequest_conditionalWrite_iff (s : State) : s.tallyRequest = some .conditionalWrite ↔
    s.tally.state = .writeWait ∧ s.tally.queue ≠ [] ∧ s.tally.reservation ≠ none := by
  rw [s.tallyRequest_eq]
  split_ifs <;> simp_all

theorem State.tallyRequest_cases {s : State} {c : Client} (h : s.tallyRequest = some c) :
    c = .reserveRead ∨ c = .conditionalWrite := by
  rw [s.tallyRequest_eq] at h
  split_ifs at h <;> simp_all

theorem State.fetchRequest_iff (s : State) :
    s.fetchRequest = true ↔ s.setup.part = .fetching ∧ s.setup.fetchPosition < 128 := by
  rw [State.fetchRequest, Bool.and_eq_true, beq_iff_eq, decide_eq_true_eq]

theorem State.withdraws_iff (s : State) : s.withdraws = true ↔
    ∃ n r, s.choose s.tallyRequest = some (.tally .conditionalWrite, n) ∧ s.tally.reservation = some r ∧
      r.intact = false := by
  unfold State.withdraws
  split
  case h_1 n hchoice =>
    cases hres : s.tally.reservation with
    | none => simp
    | some r => simp [hchoice]
  case h_2 hother =>
    refine iff_of_false Bool.false_ne_true ?_
    rintro ⟨n, r, hchoice, -⟩
    exact hother n hchoice

/-! ### The choice (R13, R14) -/

theorem State.choose_passthrough {tc : Option Client} {s : State} (hslot : s.pass.slot.isSome = true)
    (hchoice : s.internalChoice tc = none) : s.choose tc = some (.passthrough, 0) := by
  simp only [State.choose, hslot, hchoice]

theorem State.choose_contested {tc : Option Client} {s : State} {c : Choice} (hslot : s.pass.slot.isSome = true)
    (hchoice : s.internalChoice tc = some c) : s.choose tc =
      if s.pass.runCount < 4 then some (.passthrough, s.pass.runCount + 1) else some (c, 0) := by
  simp only [State.choose, hslot, hchoice]

theorem State.choose_internal {tc : Option Client} {s : State} (hslot : s.pass.slot = none) :
    s.choose tc = (s.internalChoice tc).map (fun c => (c, 0)) := by
  unfold State.choose
  rw [hslot]
  cases s.internalChoice tc <;> rfl

theorem State.internalChoice_fetch {tc : Option Client} {s : State} (h : s.fetchRequest = true) :
    s.internalChoice tc = some .fetch := if_pos h

theorem State.internalChoice_mirror {tc : Option Client} {s : State} {g : Group} (hfetch : s.fetchRequest = false)
    (hmirror : s.alerts.mirror = some g) : s.internalChoice tc = some (.mirror g) := by
  simp [State.internalChoice, hfetch, hmirror]

theorem State.internalChoice_tally {c : Client} {s : State} (hfetch : s.fetchRequest = false)
    (hmirror : s.alerts.mirror = none) (hturn : s.pass.turn = .tallyEngine ∨ s.writerRequest = none) :
    s.internalChoice (some c) = some (.tally c) := by
  rcases hturn with hturn | hnone
  · cases hreq : s.writerRequest <;> simp [State.internalChoice, hfetch, hmirror, hturn, hreq]
  · simp [State.internalChoice, hfetch, hmirror, hnone]

theorem State.internalChoice_writer_of {tc : Option Client} {c : Client} {txn : Txn} {s : State}
    (hfetch : s.fetchRequest = false) (hmirror : s.alerts.mirror = none) (hreq : s.writerRequest = some (c, txn))
    (hturn : s.pass.turn = .resultWriter ∨ tc = none) : s.internalChoice tc = some (.writer c txn) := by
  rcases hturn with hturn | rfl
  · cases tc <;> simp [State.internalChoice, hfetch, hmirror, hturn, hreq]
  · simp [State.internalChoice, hfetch, hmirror, hreq]

/-! ### The decision -/

theorem State.arbitrate_of_choice {s : State} {c : Choice} {n : Nat} (hwithdraws : s.withdraws = false)
    (hchoice : s.choose s.tallyRequest = some (c, n)) : s.arbitrate =
      State.grant c { s with pass := { s.pass with runCount := n } } := by
  rw [State.arbitrate, hwithdraws, if_neg Bool.false_ne_true, State.decideAmong, hchoice]
  rfl

theorem State.arbitrate_of_none {s : State} (hwithdraws : s.withdraws = false)
    (hchoice : s.choose s.tallyRequest = none) : s.arbitrate = s := by
  rw [State.arbitrate, hwithdraws, if_neg Bool.false_ne_true, State.decideAmong, hchoice]

theorem State.mayDecide {s : State} (hsteady : s.steady = true) (hport : s.pass.port = .free) :
    (s.steady && s.pass.port == .free) = true := by simp [hsteady, hport]

/-- Settles O22: the requests, the choice by run count and turn, and its grant. -/
theorem arbiterGrantsByRunCountAndTurn : Obligations.ArbiterGrantsByRunCountAndTurn := by
  unfold Obligations.ArbiterGrantsByRunCountAndTurn
  refine ⟨fun s => ⟨s.tallyRequest_reserveRead_iff, s.tallyRequest_conditionalWrite_iff,
      fun c h => State.tallyRequest_cases h, s.fetchRequest_iff, s.withdraws_iff⟩, fun tc s => ?_,
    fun s c n hsteady hport hwithdraws hchoice =>
      stepWhen_of_eq (s.mayDecide hsteady hport) (State.arbitrate_of_choice hwithdraws hchoice),
    fun s hsteady hport hwithdraws hchoice =>
      stepWhen_of_eq (s.mayDecide hsteady hport) (State.arbitrate_of_none hwithdraws hchoice)⟩
  refine ⟨State.choose_passthrough, fun c hslot hchoice hrun => ?_, fun c hslot hchoice hrun => ?_,
    fun c hslot hchoice => ?_, fun hslot hchoice => ?_, State.internalChoice_fetch,
    fun g => State.internalChoice_mirror, fun c hfetch hmirror htc hturn => ?_,
    fun c txn => State.internalChoice_writer_of⟩
  · rw [State.choose_contested hslot hchoice, if_pos hrun]
  · rw [State.choose_contested hslot hchoice, if_neg hrun]
  · rw [State.choose_internal hslot, hchoice]
    rfl
  · rw [State.choose_internal hslot, hchoice]
    rfl
  · rw [htc]
    exact State.internalChoice_tally hfetch hmirror hturn

/-! ### The internal grants -/

theorem Owed.has_without (o : Owed) (g h : Group) : (o.without g).has h = (o.has h && decide (h ≠ g)) := by
  cases g <;> cases h <;> simp [Owed.without, Owed.has]

theorem State.grant_reserveRead {s : State} {u : Update} {rest : List Update} (h : s.tally.queue = u :: rest) :
    s.grant (.tally .reserveRead) = { s with
      pass := { s.pass with
        turn := .resultWriter,
        port := .internal .reserveRead
          (.read (s.cfg.tallyBase + 32 * u.entry) (List.replicate 8 0xF#4)) },
      tally := { s.tally with
        state := .readOut, reservation := some { entry := u.entry, intact := true } } } := by
  have haddress : s.entryTxnAddress u = s.cfg.tallyBase + 32 * u.entry := rfl
  simp only [State.grant, State.grantTally, h, if_true, State.grantReserveRead, haddress]

theorem State.grant_conditionalWrite {s : State} {u : Update} {rest : List Update} (h : s.tally.queue = u :: rest) :
    s.grant (.tally .conditionalWrite) = { s with
        pass := { s.pass with
          turn := .resultWriter,
          port := .internal .conditionalWrite
            (.write (s.cfg.tallyBase + 32 * u.entry) ((s.tally.computed.getD []).map fullWord)) },
        tally := { s.tally with reservation := none } } := by
  have haddress : s.entryTxnAddress u = s.cfg.tallyBase + 32 * u.entry := rfl
  simp only [State.grant, State.grantTally, h, reduceCtorEq, if_false, State.grantConditionalWrite, haddress]

theorem State.writerRequest_record {s : State} {r : ResultRecord} {rest : List ResultRecord}
    (hqueue : s.writer.queue = r :: rest)
    (hstep : s.writer.step = some .recordWrite ∨ s.writer.step = some .recordRetry) :
    s.writerRequest = some (.recordWrite, s.recordWriteTxn r) := by
  rcases hstep with hstep | hstep <;> simp [State.writerRequest, hqueue, hstep]

theorem State.writerRequest_index {s : State} {r : ResultRecord} {rest : List ResultRecord}
    (hqueue : s.writer.queue = r :: rest)
    (hstep : s.writer.step = some .indexWrite ∨ s.writer.step = some .indexRetry) :
    s.writerRequest = some (.indexWrite, s.indexWriteTxn r) := by
  rcases hstep with hstep | hstep <;> simp [State.writerRequest, hqueue, hstep]

theorem State.writerRequest_idle {s : State} (hstep : s.writer.step = none) : s.writerRequest =
    s.writer.owedLine.map (fun n => (.initialisingWrite n, s.initialisingTxn n)) := by
  unfold State.writerRequest
  rw [hstep]
  cases s.writer.owedLine <;> rfl

theorem Writer.owedLine_eq_some {w : Writer} {n : Fin 16} (hn : (w.rings[n]).initOwed = true)
    (hlower : ∀ k : Fin 16, k < n → (w.rings[k]).initOwed = false) : w.owedLine = some n := by
  unfold Writer.owedLine allLines
  rw [← Fin.find?_eq_find?_finRange, Fin.find?_eq_some_iff]
  exact ⟨hn, hlower⟩

theorem Writer.owedLine_eq_none {w : Writer} (h : ∀ k : Fin 16, (w.rings[k]).initOwed = false) :
    w.owedLine = none := by
  refine List.find?_eq_none.mpr fun k _ => ?_
  rw [h k]
  exact Bool.false_ne_true

/-- Settles O24: the request of each client and the state after its grant. -/
theorem internalGrantsPutTheRequestOnThePort : Obligations.InternalGrantsPutTheRequestOnThePort := by
  unfold Obligations.InternalGrantsPutTheRequestOnThePort
  refine ⟨rfl, Owed.has_without, fun o => rfl, fun d => rfl, fun s => ?_⟩
  refine ⟨rfl, fun g => rfl, fun u rest h => State.grant_reserveRead h, fun u rest ws h hws => ?_,
    fun r rest hqueue hstep => State.writerRequest_record hqueue hstep,
    fun r rest hqueue hstep => State.writerRequest_index hqueue hstep, fun n hstep hn hlower => ?_,
    fun hstep hnone => ?_, fun txn => rfl, fun txn => rfl, fun n txn => rfl⟩
  · rw [State.grant_conditionalWrite h, hws]
    rfl
  · rw [State.writerRequest_idle hstep, Writer.owedLine_eq_some hn hlower]
    rfl
  · rw [State.writerRequest_idle hstep, Writer.owedLine_eq_none hnone]
    rfl

end Sys2Proof.Machine
end

section
/-! SUPPORT. What a write notice leaves, and the withdrawal of a conditional write (R3, R15, R50, R131, R132). -/

namespace Sys2Proof.Machine

/-! ### The matchers' part in a notice -/

/-- Posts touch the queue and the lost-tally totals alone. -/
def Tally.Posted (a b : Tally) : Prop := { b with queue := a.queue, lost := a.lost } = a

theorem Tally.Posted.refl (a : Tally) : a.Posted a := rfl

theorem Tally.Posted.trans {a b c : Tally} (h : a.Posted b) (g : b.Posted c) : a.Posted c := by
  unfold Tally.Posted at h g ⊢
  rw [← g] at h
  exact h

/-- What does not read the queue and the lost-tally totals is kept. -/
theorem Tally.Posted.keeps {a b : Tally} (h : a.Posted b) {α : Type} (f : Tally → α)
    (hf : ∀ t q l, f { t with queue := q, lost := l } = f t) : f b = f a := (hf _ _ _).symm.trans (congrArg f h)

theorem Books.closeJob_tally (n : Fin 16) (code : Nat) (x : Books) :
    x.ledger.tally.Posted (x.closeJob n code).ledger.tally := by
  show x.ledger.tally.Posted (if (x.line n).job.code = 0 then x.ledger else x.ledger.post _).tally
  split
  · exact .refl _
  · exact Ledger.post_tally_frame _ _

theorem Books.closeJob_grew (n : Fin 16) (code : Nat) (x : Books) :
    Alerts.Grew x.ledger.alerts (x.closeJob n code).ledger.alerts := by
  refine Alerts.Grew.trans ?_ (Alerts.grew_latchIf _ _ _)
  dsimp only
  split
  · exact .refl _
  · exact Ledger.post_grew _ _

/-- What the matchers' part in a notice leaves of the units it acts on. -/
structure State.Matched (s u : State) : Prop where
  channels : u.channels = s.channels
  clock : u.lines.clock = s.lines.clock
  bounds : u.lines.bounds = s.lines.bounds
  tally : s.tally.Posted u.tally
  alerts : Alerts.Grew s.alerts u.alerts
  writer : s.writer.Appended u.writer

theorem State.Matched.refl (s : State) : s.Matched s := ⟨rfl, rfl, rfl, .refl _, .refl _, .refl _⟩

theorem State.Matched.trans {s u v : State} (h : s.Matched u) (g : u.Matched v) : s.Matched v where
  channels := g.channels.trans h.channels
  clock := g.clock.trans h.clock
  bounds := g.bounds.trans h.bounds
  tally := h.tally.trans g.tally
  alerts := h.alerts.trans g.alerts
  writer := h.writer.trans g.writer

theorem State.handOverHead_matched {s : State} (h : s.handOversTaken = false) : s.Matched s.handOverHead := by
  have hroom : s.writer.queue.length < 16 := by
    simp only [State.handOversTaken, Bool.or_eq_false_iff, decide_eq_false_iff_not, not_le] at h
    exact h.2
  have hwriter := State.handOverHead_appended hroom
  unfold State.handOverHead at hwriter ⊢
  split
  · exact .refl _
  · dsimp only at hwriter ⊢
    split
    · exact ⟨rfl, rfl, rfl, .refl _, .refl _, .refl _⟩
    · exact ⟨rfl, rfl, rfl, .refl _, Alerts.grew_latchIf _ _ _, .one hroom _⟩

theorem Books.event_grew (m : Image) (n : Fin 16) (e : LineEvent) (x : Books) :
    Alerts.Grew x.ledger.alerts (x.event m n e).ledger.alerts := by
  cases e with
  | jobMark code weight => exact x.closeJob_grew n code
  | lineStop => exact .refl _
  | lineStart => exact .refl _

theorem Books.event_tally (m : Image) (n : Fin 16) (e : LineEvent) (x : Books) :
    x.ledger.tally.Posted (x.event m n e).ledger.tally := by
  cases e with
  | jobMark code weight => exact x.closeJob_tally n code
  | lineStop => exact .refl _
  | lineStart => exact .refl _

theorem Books.event_frame (m : Image) (n : Fin 16) (e : LineEvent) (x : Books) :
    (x.event m n e).channels = x.channels ∧ (x.event m n e).lines.clock = x.lines.clock ∧
    (x.event m n e).lines.bounds = x.lines.bounds := by
  cases e <;> exact ⟨rfl, rfl, rfl⟩

theorem State.deliver_matched (m : Image) (n : Fin 16) (e : LineEvent) (s : State) :
    s.Matched (s.withBooks (s.books.deliver m n e)) := by
  unfold Books.deliver
  split
  · exact ⟨rfl, rfl, rfl, .refl _, Alerts.grew_latch _ _, .refl _⟩
  · obtain ⟨hchannels, hclock, hbounds⟩ := s.books.event_frame m n e
    exact ⟨hchannels, hclock, hbounds, s.books.event_tally m n e, s.books.event_grew m n e, .refl _⟩

theorem State.matchNotice_matched (m : Image) (a : Nat) (ws : List WriteWord) (s : State) :
    s.Matched (s.matchNotice m a ws) :=
  State.matchNotice_keeps (P := fun t => s.Matched t) (fun _ h htaken => h.trans (State.handOverHead_matched htaken))
    (fun u m n e h => h.trans (u.deliver_matched m n e)) m a ws s (.refl s)

/-! ### A latched bit through a grant -/

theorem Desk.has_kept (b : AlertBit) : Desk.Kept (fun x => x.alerts.has b = true) where
  report m c x h := by
    show (x.alerts.report m c).has b = true
    rw [Alerts.has_report, h]
    rfl
  setWindow _ _ _ h := h
  enqueue m r x h := by
    unfold Desk.enqueue
    split
    · exact h
    · show (x.alerts.report m .spilled).has b = true
      rw [Alerts.has_report, h]
      rfl

theorem State.writeNotice_has {b : AlertBit} (a : Nat) (ws : List WriteWord) {s : State} (h : s.alerts.has b = true) :
    (s.writeNotice a ws).alerts.has b = true := by
  cases hw : s.setup.part.working
  · rw [State.writeNotice_resting a ws s hw]
    exact h
  · obtain ⟨x, rfl, e⟩ := State.writeNotice_working a ws s hw
    rw [e]
    exact (State.matchNotice_matched s.cfg a ws (s.withDesk _)).alerts.keeps b
      ((Desk.has_kept b).notice s.cfg s.pass.spilling a ws s.desk h)

/-! ### A decision without the Tally Engine -/

theorem State.writeNotice_pass (a : Nat) (ws : List WriteWord) (s : State) :
    (s.writeNotice a ws).pass = { s.pass with notice := (s.noticeOf a ws).settled } := by
  cases hw : s.setup.part.working
  · rw [State.writeNotice_resting a ws s hw]
    rfl
  · obtain ⟨x, rfl, e⟩ := State.writeNotice_working a ws s hw
    have hpass := State.matchNotice_pass s.cfg a ws (s.withDesk (s.desk.notice s.cfg s.pass.spilling a ws))
    rw [e]
    exact (congrArg (fun p : Pass => { p with notice := (s.noticeOf a ws).settled }) hpass :)

theorem Tally.breakReservation_none (m : Image) (a : Nat) (ws : List WriteWord) {t : Tally}
    (h : t.reservation = none) : t.breakReservation m a ws = t := by
  rw [Tally.breakReservation, h]

theorem State.writeNotice_tally (a : Nat) (ws : List WriteWord) {s : State} (h : s.tally.reservation = none) :
    s.tally.Posted (s.writeNotice a ws).tally := by
  cases hw : s.setup.part.working
  · rw [State.writeNotice_resting a ws s hw]
    show s.tally.Posted (s.tally.breakReservation s.cfg a ws)
    rw [Tally.breakReservation_none _ _ _ h]
    exact .refl _
  · obtain ⟨x, rfl, e⟩ := State.writeNotice_working a ws s hw
    have hposted := (State.matchNotice_matched s.cfg a ws
      (s.withDesk (s.desk.notice s.cfg s.pass.spilling a ws))).tally
    have hnone : ((s.withDesk (s.desk.notice s.cfg s.pass.spilling a ws)).matchNotice s.cfg a ws).tally.reservation =
        none := (congrArg Tally.reservation hposted :).trans h
    rw [e]
    exact (congrArg (s.tally.Posted ·) (Tally.breakReservation_none s.cfg a ws hnone)).mpr hposted

/-- What a decision without the Tally Engine keeps of the engine and of the latched bits, and which internal
transactions it cannot put on a free port. -/
structure State.Unserved (s u : State) : Prop where
  tally : s.tally.Posted u.tally
  has : ∀ b, s.alerts.has b = true → u.alerts.has b = true
  port : s.pass.port = .free → ∀ txn, u.pass.port ≠ .internal .conditionalWrite txn ∧
    u.pass.port ≠ .internal .reserveRead txn

/-- A choice of the Tally Engine is its request. -/
theorem State.choose_tally {o : Option Client} {s : State} {c : Client} {n : Nat}
    (h : s.choose o = some (.tally c, n)) : o = some c := by
  have hchoice (h : s.internalChoice o = some (.tally c)) : o = some c := by
    unfold State.internalChoice at h
    split at h
    · cases h
    · split at h
      · cases h
      · cases o with
        | none => cases hreq : s.writerRequest <;> simp [hreq] at h
        | some d => cases hreq : s.writerRequest <;> cases hturn : s.pass.turn <;> simp_all
  cases hslot : s.pass.slot with
  | none =>
    rw [State.choose_internal hslot, Option.map_eq_some_iff] at h
    obtain ⟨c', hc', heq⟩ := h
    obtain ⟨rfl, -⟩ := Prod.mk.inj heq
    exact hchoice hc'
  | some txn =>
    have hsome : s.pass.slot.isSome = true := by rw [hslot]; rfl
    cases hinternal : s.internalChoice o with
    | none => simp [State.choose_passthrough hsome hinternal] at h
    | some c' =>
      rw [State.choose_contested hsome hinternal] at h
      split at h
      · cases h
      · obtain ⟨rfl, -⟩ := Prod.mk.inj (Option.some.inj h)
        exact hchoice hinternal

theorem State.grantPassthrough_unserved {s : State} (h : s.tally.reservation = none) :
    s.Unserved s.grantPassthrough := by
  unfold State.grantPassthrough
  dsimp only
  split
  · refine ⟨State.writeNotice_tally _ _ (s := { s with pass := { s.pass with port := .passthrough } }) h,
      fun b hb => State.writeNotice_has _ _ (s := { s with pass := { s.pass with port := .passthrough } }) hb,
      fun _ txn => ?_⟩
    rw [State.writeNotice_pass]
    exact ⟨nofun, nofun⟩
  · exact ⟨.refl _, fun _ hb => hb, fun _ txn => ⟨nofun, nofun⟩⟩
  · exact ⟨.refl _, fun _ hb => hb, fun hfree txn => by rw [hfree]; exact ⟨nofun, nofun⟩⟩

theorem State.grantWriter_unserved {s : State} {c : Client} {txn : Txn} (h : s.writerRequest = some (c, txn)) :
    s.Unserved (s.grantWriter c txn) := by
  rcases State.writerRequest_cases h with ⟨-, rfl | rfl⟩ | ⟨n, rfl, -⟩ <;>
    exact ⟨.refl _, fun _ hb => hb, fun _ _ => ⟨nofun, nofun⟩⟩

theorem State.decideAmong_unserved {s : State} (h : s.tally.reservation = none) : s.Unserved (s.decideAmong none) := by
  unfold State.decideAmong
  split
  · next c n hchoose =>
    cases c with
    | passthrough =>
      obtain ⟨htally, hhas, hport⟩ := State.grantPassthrough_unserved (s := s.setRunCount n) h
      exact ⟨htally, hhas, hport⟩
    | fetch => exact ⟨.refl _, fun _ hb => hb, fun _ _ => ⟨nofun, nofun⟩⟩
    | mirror g => exact ⟨.refl _, fun _ hb => hb, fun _ _ => ⟨nofun, nofun⟩⟩
    | tally client => exact absurd (State.choose_tally hchoose) nofun
    | writer client txn =>
      obtain ⟨htally, hhas, hport⟩ :=
        State.grantWriter_unserved (s := s.setRunCount n) (State.choose_writer (s := s) hchoose :)
      exact ⟨htally, hhas, hport⟩
  · exact ⟨.refl _, fun _ hb => hb, fun hfree _ => by rw [hfree]; exact ⟨nofun, nofun⟩⟩

/-! ### The loss (R131, R132) -/

theorem Ledger.loss_early (m : Image) {x : Ledger} (h : x.tally.losses + 1 < 8) : x.loss m false =
    { tally := { x.tally with
        losses := x.tally.losses + 1, computed := none, reservation := none, state := .backoff,
        backoff := some (backoffDraw x.tally.draws (x.tally.losses + 1)), draws := x.tally.draws + 1 },
      alerts := x.alerts.report m .tallyLoss } := by
  rw [Ledger.loss, if_neg (by omega), Bool.or_false]

theorem Ledger.loss_last (m : Image) {x : Ledger} {u : Update} {rest : List Update} (h : ¬ x.tally.losses + 1 < 8)
    (hqueue : x.tally.queue = u :: rest) : x.loss m false = Ledger.miss .contention x.tally.lockedLoss u
      { tally := { x.tally with
          queue := rest, state := .idle, losses := 0, lockedLoss := false, computed := none,
          reservation := none, backoff := none },
        alerts := x.alerts.report m .tallyLoss } := by
  rw [Ledger.loss, if_pos (by omega), Bool.or_false, Ledger.sendToMissList]
  simp only [hqueue, Tally.finish, List.tail_cons]

theorem Ledger.has_miss (reason : MissReason) (locked : Bool) (u : Update) (x : Ledger) :
    (x.miss reason locked u).alerts.has .tallyMiss = true := by
  unfold Ledger.miss
  split
  · exact Alerts.has_latch_self _ _
  · split
    · exact Alerts.has_latch_self _ _
    · exact Alerts.has_latch_self _ _

theorem backoffDraw_lt (draws n : Nat) : backoffDraw draws n < 2 ^ min n 5 := Nat.mod_lt _ (Nat.two_pow_pos _)

/-- A decision among the requests is the choice granted. -/
theorem State.decideAmong_eq (o : Option Client) (s : State) : s.decideAmong o = (match s.choose o with
    | some (c, n) => State.grant c { s with pass := { s.pass with runCount := n } }
    | none => s) := by
  unfold State.decideAmong
  rcases s.choose o with _ | ⟨c, n⟩ <;> rfl

/-- Settles O25: a loss, then the decision among the requests of the other clients. -/
theorem brokenReservationIsWithdrawnWithALoss : Obligations.BrokenReservationIsWithdrawnWithALoss := by
  unfold Obligations.BrokenReservationIsWithdrawnWithALoss
  refine ⟨State.withdraws_iff, State.tallyRequest_conditionalWrite_iff, ?_⟩
  intro s hsteady hport hwithdraws decided reported
  obtain ⟨n, r, hchoice, hreservation, -⟩ := s.withdraws_iff.mp hwithdraws
  let lost := s.withLedger (s.ledger.loss s.cfg false)
  have hlost : lost.tally.reservation = none := Ledger.loss_reservation s.cfg false s.ledger
  have harbitrate : s.arbitrate = lost.decideAmong none := if_pos hwithdraws
  have hdecided : lost.decideAmong none = decided lost := State.decideAmong_eq none lost
  obtain ⟨htally, hhas, hfree⟩ := State.decideAmong_unserved hlost
  have hkept {α : Type} (f : Tally → α) (hf : ∀ t q l, f { t with queue := q, lost := l } = f t) :
      f s.arbitrate.tally = f (s.ledger.loss s.cfg false).tally := by
    rw [harbitrate]
    exact htally.keeps f hf
  refine ⟨s.arbitrate.requestMirror, stepWhen_can _ s (s.mayDecide hsteady hport), ?_, ?_, ?_, fun hearly => ?_,
    fun hlast => ?_, s.arbitrate_pending, s.arbitrate_inReset, s.arbitrate_setup⟩
  · show s.arbitrate.tally.reservation = none
    rw [harbitrate]
    exact (htally.keeps Tally.reservation fun _ _ _ => rfl).trans hlost
  · show ∀ txn, s.arbitrate.pass.port ≠ _
    rw [harbitrate]
    exact fun txn => (hfree hport txn).1
  · show ∀ txn, s.arbitrate.pass.port ≠ _
    rw [harbitrate]
    exact fun txn => (hfree hport txn).2
  · have hloss := Ledger.loss_early s.cfg (x := s.ledger) hearly
    refine ⟨?_, ?_, backoffDraw s.tally.draws (s.tally.losses + 1), s.arbitrate.requestMirror.alerts.mirror, ?_,
      backoffDraw_lt _ _, ?_⟩
    · exact (hkept Tally.losses fun _ _ _ => rfl).trans (by rw [hloss]; rfl)
    · exact (hkept Tally.state fun _ _ _ => rfl).trans (by rw [hloss])
    · exact (hkept Tally.backoff fun _ _ _ => rfl).trans (by rw [hloss]; rfl)
    · refine (requestMirror_eq _).trans ?_
      rw [harbitrate, hdecided]
      simp only [lost, State.withLedger, hloss]
      rfl
  · obtain ⟨-, hqueue, -⟩ := s.tallyRequest_conditionalWrite_iff.mp (State.choose_tally hchoice)
    obtain ⟨u, rest, hqueue⟩ := List.exists_cons_of_ne_nil hqueue
    have hloss := Ledger.loss_last s.cfg (x := s.ledger) hlast hqueue
    have hmissed {α : Type} (f : Tally → α) (hf : ∀ t ms l, f { t with misses := ms, lost := l } = f t) :
        f (s.ledger.loss s.cfg false).tally = f { s.tally with
          queue := rest, state := .idle, losses := 0, lockedLoss := false, computed := none,
          reservation := none, backoff := none } := by
      rw [hloss]
      exact (hf _ _ _).symm.trans (congrArg f (Ledger.miss_tally_frame .contention s.tally.lockedLoss u _))
    have hmiss : lost.alerts.has .tallyMiss = true := by
      simp only [lost, State.withLedger, hloss]
      exact Ledger.has_miss _ _ _ _
    refine ⟨?_, ?_, ?_, ?_, u, rest, s.arbitrate.requestMirror.alerts.mirror, hqueue, ?_⟩
    · exact (hkept Tally.losses fun _ _ _ => rfl).trans (hmissed Tally.losses fun _ _ _ => rfl)
    · exact (hkept Tally.state fun _ _ _ => rfl).trans (hmissed Tally.state fun _ _ _ => rfl)
    · exact (hkept Tally.backoff fun _ _ _ => rfl).trans (hmissed Tally.backoff fun _ _ _ => rfl)
    · rw [State.requestMirror_has, harbitrate]
      exact hhas _ hmiss
    · refine (requestMirror_eq _).trans ?_
      rw [harbitrate, hdecided]
      simp only [lost, State.withLedger, hloss]
      rfl

end Sys2Proof.Machine
end

section
/-! SUPPORT. The grant of a passthrough transaction (R3, R115, R130, R144, R188). -/

namespace Sys2Proof.Machine

/-! ### The deliveries a notice owes -/

/-- Some word of a burst meets a condition on its address. -/
theorem any_addressed_iff {p : Nat → Bool} (a : Nat) (ws : List WriteWord) :
    (addressed a ws).any (fun c => p c.1) = true ↔ ∃ k, k < ws.length ∧ p (a + 4 * k) = true := by
  rw [List.any_eq_true]
  constructor
  · rintro ⟨c, hc, hp⟩
    obtain ⟨k, hk, hck⟩ := mem_addressed.mp hc
    exact ⟨k, (List.getElem?_eq_some_iff.mp hk).1, hck ▸ hp⟩
  · rintro ⟨k, hk, hp⟩
    exact ⟨(a + 4 * k, ws[k]), mem_addressed.mpr ⟨k, List.getElem?_eq_getElem hk, rfl⟩, hp⟩

theorem anyEnabled_iff (w : WriteWord) : anyEnabled w = true ↔ w.enables ≠ 0 := bne_iff_ne

theorem Setup.wordNumber_isSome_iff (u : Setup) (a : Nat) :
    (u.wordNumber a).isSome = true ↔ u.blockAddress ≤ a ∧ a < u.blockAddress + 8192 := by
  simp only [Setup.wordNumber, Option.isSome_ite]

theorem Setup.writes_iff (u : Setup) {i a : Nat} (ws : List WriteWord) (ha : a % 4 = 0) (hi : i < 2048) :
    u.writes i a ws = true ↔ ∃ k w, ws[k]? = some w ∧ a + 4 * k = u.blockAddress + 4 * i ∧ w.enables ≠ 0 := by
  have hword := u.noticeWord_eq_some_iff ws (ha := ha) (hi := hi)
  unfold Setup.writes
  cases hnotice : u.noticeWord i a ws with
  | none =>
    refine iff_of_false Bool.false_ne_true ?_
    rintro ⟨k, w, hk, hat, -⟩
    have := (hword w).mpr ⟨k, hk, hat⟩
    rw [hnotice] at this
    contradiction
  | some w =>
    obtain ⟨k, hk, hat⟩ := (hword w).mp hnotice
    refine (anyEnabled_iff w).trans ⟨fun h => ⟨k, w, hk, hat, h⟩, ?_⟩
    rintro ⟨k', w', hk', hat', h⟩
    obtain rfl : w = w' := Option.some.inj (hnotice.symm.trans ((hword w').mpr ⟨k', hk', hat'⟩))
    exact h

theorem Image.consumerLine_isSome_iff (m : Image) (a : Nat) :
    (m.consumerLine a).isSome = true ↔ ∃ l, m.kind l ≠ .none ∧ a = m.ringBase l + 4 := by
  simp only [Image.consumerLine, List.find?_isSome, allLines, List.mem_finRange, true_and, Bool.and_eq_true,
    beq_iff_eq, Image.ringInForce, bne_iff_ne, eq_comm (a := a)]

theorem Image.touchesConsumer_iff (m : Image) (a : Nat) (ws : List WriteWord) : m.touchesConsumer a ws = true ↔
    ∃ k l, k < ws.length ∧ m.kind l ≠ .none ∧ a + 4 * k = m.ringBase l + 4 := by
  rw [Image.touchesConsumer, any_addressed_iff (p := fun a => (m.consumerLine a).isSome)]
  simp only [m.consumerLine_isSome_iff]
  exact ⟨fun ⟨k, hk, l, h⟩ => ⟨k, l, hk, h⟩, fun ⟨k, l, hk, h⟩ => ⟨k, hk, l, h⟩⟩

theorem noticeTouches_iff (base a : Nat) (ws : List WriteWord) : noticeTouches base a ws = true ↔
    ∃ k w, ws[k]? = some w ∧ base ≤ a + 4 * k ∧ a + 4 * k < base + 32 ∧ w.enables ≠ 0 := by
  simp only [noticeTouches, List.any_eq_true, Bool.and_eq_true, decide_eq_true_eq, anyEnabled_iff]
  constructor
  · rintro ⟨⟨b, w⟩, hc, ⟨hlow, hhigh⟩, hw⟩
    obtain ⟨k, hk, rfl⟩ := mem_addressed.mp hc
    exact ⟨k, w, hk, hlow, hhigh, hw⟩
  · rintro ⟨k, w, hk, hlow, hhigh, hw⟩
    exact ⟨(a + 4 * k, w), mem_addressed.mpr ⟨k, hk, rfl⟩, ⟨hlow, hhigh⟩, hw⟩

theorem Notice.settled_eq (n : Notice) : n.settled = if n.captureDue = true ∨ n.clockDue = true ∨
    n.generationDue = true ∨ n.commandDue = true ∨ n.consumerDue = true then some n else none := by
  simp only [Notice.settled, Bool.or_eq_true, or_assoc]

/-! ### The reservation (R130) -/

theorem Tally.breakReservation_some {m : Image} {a : Nat} {ws : List WriteWord} {t : Tally} {r : Reservation}
    (h : t.reservation = some r) : (t.breakReservation m a ws).reservation =
      some (if noticeTouches (m.tallyBase + 32 * r.entry) a ws then { r with intact := false } else r) := by
  by_cases htouch : noticeTouches (m.tallyBase + 32 * r.entry) a ws = true
  · simp only [Tally.breakReservation, h, Image.entryAddress, htouch, if_true]
  · simp [Tally.breakReservation, h, Image.entryAddress, htouch]

/-- A notice breaks a reservation and leaves the rest of the engine. -/
theorem Tally.breakReservation_frame (m : Image) (a : Nat) (ws : List WriteWord) (t : Tally) :
    { t.breakReservation m a ws with reservation := t.reservation } = t := by
  unfold Tally.breakReservation
  split
  · split <;> rfl
  · rfl

theorem Tally.breakReservation_keeps {α : Type} (f : Tally → α) (hf : ∀ t r, f { t with reservation := r } = f t)
    (m : Image) (a : Nat) (ws : List WriteWord) (t : Tally) : f (t.breakReservation m a ws) = f t :=
  (hf _ _).symm.trans (congrArg f (Tally.breakReservation_frame m a ws t))

/-! ### The grant -/

theorem Desk.notice_outside {m : Image} {a : Nat} (spill : Bool) (ws : List WriteWord) (x : Desk)
    (h : m.windowAt a = none) : x.notice m spill a ws = x := by
  rw [Desk.notice, h]

theorem Desk.notice_spilling {m : Image} {a : Nat} (ws : List WriteWord) (x : Desk) (h : m.windowAt a ≠ none) :
    x.notice m true a ws = x.report m .spilled := by
  obtain ⟨i, hi⟩ := Option.ne_none_iff_exists'.mp h
  rw [Desk.notice, hi]
  rfl

theorem Part.working_iff (p : Part) : p.working = true ↔ p = .active ∨ ∃ q, p = .applying q := by
  cases p <;> simp [Part.working]

theorem Part.working_eq_false_iff (p : Part) : p.working = false ↔ p = .fetching ∨ p = .unset := by
  cases p <;> simp [Part.working]

/-- A write notice, seen as the matchers' part, the break of the reservation, and the deliveries owed. -/
structure State.Noticed (s y : State) : Prop where
  channels : y.channels = s.channels
  clock : y.lines.clock = s.lines.clock
  bounds : y.lines.bounds = s.lines.bounds
  tally : s.tally.Posted y.tally
  writer : s.writer.Appended y.writer

theorem State.writeNotice_noticed (a : Nat) (ws : List WriteWord) (s : State) : ∃ y, s.Noticed y ∧
    s.writeNotice a ws = ({ y with tally := y.tally.breakReservation s.cfg a ws }).setNotice (s.noticeOf a ws) := by
  cases hw : s.setup.part.working
  · exact ⟨s, ⟨rfl, rfl, rfl, .refl _, .refl _⟩, State.writeNotice_resting a ws s hw⟩
  · obtain ⟨y, rfl, e⟩ := State.writeNotice_working a ws s hw
    obtain ⟨hchannels, hclock, hbounds, htally, -, hwriter⟩ :=
      State.matchNotice_matched s.cfg a ws (s.withDesk (s.desk.notice s.cfg s.pass.spilling a ws))
    exact ⟨_, ⟨hchannels, hclock, hbounds, htally, hwriter⟩, e⟩

/-- The intake after a write notice: as before outside every window, in a spill and without a setup in force. -/
theorem State.writeNotice_intake {a : Nat} {s : State} (ws : List WriteWord) (h : s.setup.part = .fetching ∨
    s.setup.part = .unset ∨ s.cfg.windowAt a = none ∨ s.pass.spilling = true) :
    (s.writeNotice a ws).intake = s.intake := by
  cases hw : s.setup.part.working with
  | false =>
    rw [State.writeNotice_resting a ws s hw]
    rfl
  | true =>
    obtain ⟨y, rfl, e⟩ := State.writeNotice_working a ws s hw
    have hintake := State.matchNotice_intake s.cfg a ws (s.withDesk (s.desk.notice s.cfg s.pass.spilling a ws))
    rw [e]
    refine hintake.trans ?_
    show (s.desk.notice s.cfg s.pass.spilling a ws).intake = s.intake
    by_cases hwindow : s.cfg.windowAt a = none
    · rw [Desk.notice_outside _ _ _ hwindow]
      rfl
    · have hspill : s.pass.spilling = true := by
        rcases h with h | h | h | h
        · simp [h, Part.working] at hw
        · simp [h, Part.working] at hw
        · exact absurd h hwindow
        · exact h
      rw [hspill, Desk.notice_spilling _ _ hwindow]
      rfl

/-- The state in which the notice of a granted passthrough write acts. -/
def State.passing (n : Nat) (s : State) : State :=
  { s with pass := { s.pass with port := .passthrough, runCount := n } }

theorem State.arbitrate_write {s : State} {a n : Nat} {ws : List WriteWord} (hwithdraws : s.withdraws = false)
    (hslot : s.pass.slot = some (.write a ws)) (hchoice : s.choose s.tallyRequest = some (.passthrough, n)) :
    s.arbitrate = (s.passing n).writeNotice a ws := by
  have hslot : (s.setRunCount n).pass.slot = _ := hslot
  rw [State.arbitrate_of_choice hwithdraws hchoice]
  show (s.setRunCount n).grantPassthrough = _
  rw [State.grantPassthrough, hslot]
  rfl

theorem State.arbitrate_read {s : State} {a n : Nat} {es : List (BitVec 4)} (hwithdraws : s.withdraws = false)
    (hslot : s.pass.slot = some (.read a es)) (hchoice : s.choose s.tallyRequest = some (.passthrough, n)) :
    s.arbitrate = s.passing n := by
  have hslot : (s.setRunCount n).pass.slot = _ := hslot
  rw [State.arbitrate_of_choice hwithdraws hchoice]
  show (s.setRunCount n).grantPassthrough = _
  rw [State.grantPassthrough, hslot]
  rfl

/-- Settles O23: the notice acts on the units in the order of R3, and the rest is owed as deliveries. -/
theorem passthroughWriteGrantIssuesANotice : Obligations.PassthroughWriteGrantIssuesANotice := by
  unfold Obligations.PassthroughWriteGrantIssuesANotice
  refine ⟨fun s a ws ha => ?_, noticeTouches_iff, Notice.settled_eq,
    fun s a ws n hsteady hport hwithdraws hslot hchoice => ?_,
    fun s a es n hsteady hport hwithdraws hslot hchoice =>
      stepWhen_of_eq (s.mayDecide hsteady hport) (State.arbitrate_read hwithdraws hslot hchoice)⟩
  · refine ⟨rfl, rfl, ?_, s.setup.writes_iff ws ha (by decide), s.setup.writes_iff ws ha (by decide),
      s.setup.writes_iff ws ha (by decide), s.cfg.touchesConsumer_iff a ws⟩
    refine (any_addressed_iff (p := fun a => (s.setup.wordNumber a).isSome) a ws).trans ?_
    simp only [s.setup.wordNumber_isSome_iff]
  · have harbitrate := State.arbitrate_write hwithdraws hslot hchoice
    obtain ⟨y, ⟨hchannels, hclock, hbounds, htally, hwriter⟩, hnotice⟩ := (s.passing n).writeNotice_noticed a ws
    have hreservation := htally.keeps Tally.reservation fun _ _ _ => rfl
    obtain ⟨extra, hwriter, -⟩ := hwriter
    have hrings : y.writer.rings = s.writer.rings := (congrArg Writer.rings hwriter :)
    have hstep : y.writer.step = s.writer.step := (congrArg Writer.step hwriter :)
    have hrest {α : Type} (f : State → α) (hf : ∀ u : State, f u.requestMirror = f u) :
        f s.arbitrate.requestMirror = f ((s.passing n).writeNotice a ws) := by rw [hf, harbitrate]
    have hunit {α : Type} (f : State → α) (hf : ∀ u : State, f u.requestMirror = f u) :
        f s.arbitrate.requestMirror =
          f (({ y with tally := y.tally.breakReservation s.cfg a ws }).setNotice ((s.passing n).noticeOf a ws)) := by
      rw [hf, harbitrate, hnotice]
      rfl
    refine ⟨s.arbitrate.requestMirror, stepWhen_can _ s (s.mayDecide hsteady hport), ?_, s.arbitrate_setup, ?_,
      s.arbitrate_pending, s.arbitrate_inReset, ?_, ?_, ?_, ?_, fun r hr htouch => ?_, fun r hr htouch => ?_,
      fun hnone => ?_, ?_, ?_, ?_, ?_, fun hout => ?_, fun hresting => ?_, fun hworking => ?_⟩
    · exact (hrest State.pass fun _ => rfl).trans (State.writeNotice_pass a ws (s.passing n))
    · exact (hunit State.channels fun _ => rfl).trans hchannels
    · exact (hunit (fun u => u.writer.rings) fun _ => rfl).trans hrings
    · exact (hunit (fun u => u.writer.step) fun _ => rfl).trans hstep
    · exact (hunit (fun u => u.lines.clock) fun _ => rfl).trans hclock
    · exact (hunit (fun u => u.lines.bounds) fun _ => rfl).trans hbounds
    · refine (hunit (fun u => u.tally.reservation) fun _ => rfl).trans ?_
      refine (Tally.breakReservation_some (hreservation.trans hr)).trans ?_
      rw [if_pos htouch]
    · refine (hunit (fun u => u.tally.reservation) fun _ => rfl).trans ?_
      refine (Tally.breakReservation_some (hreservation.trans hr)).trans ?_
      rw [if_neg (Bool.eq_false_iff.mp htouch)]
    · refine (hunit (fun u => u.tally.reservation) fun _ => rfl).trans ?_
      have hnone := hreservation.trans hnone
      exact (congrArg Tally.reservation (Tally.breakReservation_none s.cfg a ws hnone)).trans hnone
    · exact (hunit (fun u => u.tally.state) fun _ => rfl).trans
        ((Tally.breakReservation_keeps Tally.state (fun _ _ => rfl) _ _ _ _).trans
          (htally.keeps Tally.state fun _ _ _ => rfl))
    · exact (hunit (fun u => u.tally.losses) fun _ => rfl).trans
        ((Tally.breakReservation_keeps Tally.losses (fun _ _ => rfl) _ _ _ _).trans
          (htally.keeps Tally.losses fun _ _ _ => rfl))
    · exact (hunit (fun u => u.tally.computed) fun _ => rfl).trans
        ((Tally.breakReservation_keeps Tally.computed (fun _ _ => rfl) _ _ _ _).trans
          (htally.keeps Tally.computed fun _ _ _ => rfl))
    · exact (hunit (fun u => u.tally.misses) fun _ => rfl).trans
        ((Tally.breakReservation_keeps Tally.misses (fun _ _ => rfl) _ _ _ _).trans
          (htally.keeps Tally.misses fun _ _ _ => rfl))
    · exact (hrest State.intake fun _ => rfl).trans (State.writeNotice_intake (s := s.passing n) ws hout)
    · have hw := (Part.working_eq_false_iff _).mpr hresting
      have hlines : ((s.passing n).writeNotice a ws).lines = s.lines := by
        rw [State.writeNotice_resting a ws (s.passing n) hw]
        rfl
      have hqueue : ((s.passing n).writeNotice a ws).tally.queue = s.tally.queue := by
        rw [State.writeNotice_resting a ws (s.passing n) hw]
        exact Tally.breakReservation_queue _ _ _ _
      have hwriter : ((s.passing n).writeNotice a ws).writer = s.writer := by
        rw [State.writeNotice_resting a ws (s.passing n) hw]
        rfl
      exact ⟨(hrest State.lines fun _ => rfl).trans hlines, (hrest (fun u => u.tally.queue) fun _ => rfl).trans hqueue,
        (hrest State.writer fun _ => rfl).trans hwriter⟩
    · intro d x
      have hw := (Part.working_iff _).mpr hworking
      have hx : ((s.passing n).withDesk d).matchNotice s.cfg a ws = { x with pass := (s.passing n).pass } :=
        State.matchNotice_withPass (s.passing n).pass s.cfg a ws { s with intake := d.intake, alerts := d.alerts }
      have hnoticed : (s.passing n).writeNotice a ws =
          ({ x with pass := (s.passing n).pass, tally := x.tally.breakReservation s.cfg a ws }).setNotice
            ((s.passing n).noticeOf a ws) := by
        obtain ⟨z, hz, hz'⟩ := State.writeNotice_working a ws (s.passing n) hw
        rw [hz', hz.trans hx]
        rfl
      have hunit {α : Type} (f : State → α) (hf : ∀ u : State, f u.requestMirror = f u) :
          f s.arbitrate.requestMirror = f (({ x with
            pass := (s.passing n).pass, tally := x.tally.breakReservation s.cfg a ws }).setNotice
              ((s.passing n).noticeOf a ws)) := by rw [hf, harbitrate, hnoticed]
      refine ⟨(hunit State.intake fun _ => rfl).trans ?_, hunit State.lines fun _ => rfl,
        hunit State.writer fun _ => rfl,
        (hunit (fun u => u.tally.queue) fun _ => rfl).trans
          (Tally.breakReservation_keeps Tally.queue (fun _ _ => rfl) s.cfg a ws x.tally),
        (hunit (fun u => u.tally.lost) fun _ => rfl).trans
          (Tally.breakReservation_keeps Tally.lost (fun _ _ => rfl) s.cfg a ws x.tally),
        hunit (fun u => u.alerts.latched) requestMirror_latched,
        hunit (fun u => u.alerts.counters) requestMirror_counters, fun hwindow hspill => ?_⟩
      · exact State.matchNotice_intake s.cfg a ws { s with intake := d.intake, alerts := d.alerts }
      · have hd : d = Desk.report s.cfg .spilled { intake := s.intake, alerts := s.alerts } := by
          simp only [d, hspill]
          exact Desk.notice_spilling ws _ hwindow
        rw [hd]
        rfl

end Sys2Proof.Machine
end

section
/-! SUPPORT. Consumer index words, read clearing, and the commands by part state (R102, R115, R161 to R163, R174). -/

namespace Sys2Proof.Machine

/-! ### Consumer index words (R115) -/

theorem mergeIndex_getLsbD (old : BitVec 16) (w : WriteWord) {b : Nat} (hb : b < 16) : (mergeIndex old w).getLsbD b =
    if w.enables.getLsbD (b / 8) then w.data.getLsbD b else old.getLsbD b := by
  rw [mergeIndex, BitVec.truncate_eq_setWidth, BitVec.getLsbD_setWidth, mergeBytes_getLsbD _ _ (by omega)]
  simp [hb, show b < 32 by omega]

theorem lowEnabled_iff (w : WriteWord) :
    lowEnabled w = true ↔ w.enables.getLsbD 0 = true ∨ w.enables.getLsbD 1 = true := Bool.or_eq_true_iff

theorem State.consumerWord_unwritten {w : WriteWord} (n : Fin 16) (s : State) (h0 : w.enables.getLsbD 0 = false)
    (h1 : w.enables.getLsbD 1 = false) : s.consumerWord n w = s := by
  have hlow : ¬ lowEnabled w = true := by rw [lowEnabled, h0, h1]; decide
  exact if_neg hlow

theorem State.consumerWord_fits {w : WriteWord} {n : Fin 16} {s : State}
    (hlow : w.enables.getLsbD 0 = true ∨ w.enables.getLsbD 1 = true)
    (hfits : ((s.writer.rings[n]).reservedProducer - mergeIndex (s.writer.rings[n]).shadow w).toNat ≤
      s.cfg.ringSize n) :
    s.consumerWord n w = { s with writer := { s.writer with
      rings := s.writer.rings.set n
        { s.writer.rings[n] with shadow := mergeIndex (s.writer.rings[n]).shadow w } } } :=
  (if_pos ((lowEnabled_iff w).mpr hlow)).trans (if_pos hfits)

theorem State.consumerWord_refused {w : WriteWord} {n : Fin 16} {s : State}
    (hlow : w.enables.getLsbD 0 = true ∨ w.enables.getLsbD 1 = true)
    (hover : ¬ ((s.writer.rings[n]).reservedProducer - mergeIndex (s.writer.rings[n]).shadow w).toNat ≤
      s.cfg.ringSize n) :
    s.consumerWord n w = { s with alerts := s.alerts.latch .consumerInvalid } :=
  (if_pos ((lowEnabled_iff w).mpr hlow)).trans (if_neg hover)

theorem Image.consumerLine_eq_none_iff (m : Image) (a : Nat) :
    m.consumerLine a = none ↔ ∀ n : Fin 16, m.kind n ≠ .none → a ≠ m.ringBase n + 4 := by
  rw [← Option.not_isSome_iff_eq_none, m.consumerLine_isSome_iff]
  simp

theorem Image.consumerLine_some {m : Image} {a : Nat} {n : Fin 16} (h : m.consumerLine a = some n) :
    m.kind n ≠ .none ∧ a = m.ringBase n + 4 := by
  have hfound := List.find?_some h
  simp only [Image.ringInForce, Bool.and_eq_true, bne_iff_ne, beq_iff_eq] at hfound
  exact ⟨hfound.1, hfound.2.symm⟩

/-- In a validated setup one ring at most lies at an address. -/
theorem Image.consumerLine_of_valid {m : Image} {block a : Nat} {n : Fin 16} (hvalid : m.validate block = none)
    (hkind : m.kind n ≠ .none) (ha : a = m.ringBase n + 4) : m.consumerLine a = some n := by
  obtain ⟨-, -, -, -, -, hrings, -⟩ := Image.apart_of_validate hvalid
  cases hline : m.consumerLine a with
  | none => exact absurd ha ((m.consumerLine_eq_none_iff a).mp hline n hkind)
  | some k =>
    obtain ⟨hkind', ha'⟩ := Image.consumerLine_some hline
    obtain ⟨-, -, -, -, hothers, -⟩ := hrings n hkind
    by_cases hkn : k = n
    · rw [hkn]
    · exact absurd ⟨m.ringBase n, by omega, by omega, by omega, by omega⟩ (hothers k hkn hkind')

/-- Settles O29: the test of one word, the line it finds, and the words of a notice in order. -/
theorem consumerIndexIsTestedAgainstTheReservedProducer :
    Obligations.ConsumerIndexIsTestedAgainstTheReservedProducer := by
  unfold Obligations.ConsumerIndexIsTestedAgainstTheReservedProducer
  refine ⟨fun s n hreset hnotice hdue => ?_, fun s n w => ⟨fun b hb => mergeIndex_getLsbD _ w hb,
      State.consumerWord_unwritten n s, State.consumerWord_fits, State.consumerWord_refused⟩,
    fun m a => ⟨fun n => Image.consumerLine_some, (m.consumerLine_eq_none_iff a).mp,
      fun block n => Image.consumerLine_of_valid⟩, fun s a w ws => ⟨rfl, fun hnone => ?_, fun n hn => ?_⟩⟩
  · have htake : s.takeConsumer = State.consumerNotice n.address n.words
        { s with pass := { s.pass with notice := { n with consumerDue := false }.settled } } := by
      rw [State.takeConsumer, hnotice]
      rfl
    have hcan : (!s.inReset && s.consumerReady) = true := by simp [hreset, State.consumerReady, hnotice, hdue]
    exact stepWhen_of_eq hcan htake
  · rw [State.consumerNotice, addressed, List.foldl_cons]
    simp only [hnone]
    rfl
  · rw [State.consumerNotice, addressed, List.foldl_cons]
    simp only [hn]
    rfl

/-! ### Read clearing (R174) -/

theorem State.takeObservation_idle {s : State} {w : Word} (hobs : s.pass.observation = some w)
    (h : s.setup.part = .fetching ∨ w.truncate 22 = 0#22) :
    s.takeObservation = { s with pass := { s.pass with observation := none } } := by
  rw [State.takeObservation, hobs]
  by_cases hfetch : s.setup.part = .fetching
  · simp only [hfetch, if_true]
  · have hzero : w.truncate 22 = 0#22 := h.resolve_left hfetch
    simp [hfetch, Alerts.clearRead, hzero]

theorem State.takeObservation_clears {s : State} {w : Word} (hobs : s.pass.observation = some w)
    (hpart : s.setup.part ≠ .fetching) (hw : w.truncate 22 ≠ 0#22) :
    s.takeObservation = { s with
      pass := { s.pass with observation := none },
      alerts := { s.alerts with
        latched := s.alerts.latched &&& ~~~(w.truncate 22), readHold := true,
        owed := { s.alerts.owed with latched := true } } } := by
  rw [State.takeObservation, hobs]
  have hclear : s.alerts.clearRead w = { s.alerts with
      latched := s.alerts.latched &&& ~~~(w.truncate 22), readHold := true,
      owed := { s.alerts.owed with latched := true } } := if_neg hw
  simp only [hpart, if_false, hclear]

/-- Settles O30: the observation is taken, and acts outside FETCHING by the bits it has set. -/
theorem readClearsExactlyTheReturnedBits : Obligations.ReadClearsExactlyTheReturnedBits := by
  unfold Obligations.ReadClearsExactlyTheReturnedBits
  intro s w hsteady hobs
  have hcan : (s.steady && s.pass.observation.isSome) = true := by simp [hsteady, hobs]
  refine ⟨fun hidle => stepWhen_of_eq hcan (State.takeObservation_idle hobs hidle), fun hpart hw => ?_⟩
  obtain ⟨m, hm⟩ := stepWhen_of_eq hcan (State.takeObservation_clears hobs hpart hw)
  refine ⟨m, _, hm, fun b hb => ?_⟩
  rw [BitVec.getLsbD_and, BitVec.getLsbD_not, BitVec.truncate_eq_setWidth, BitVec.getLsbD_setWidth]
  simp [hb]

/-! ### A command by part state (R161, R162) -/

/-- The step that a command word's code names takes it, once the closes that come before it are taken. -/
theorem exec_commandStep {s : State} {n : Notice} (h : s.CommandDelivered n)
    (hcloses : commandCode (s.setup.shadow.get 2) = 1 ∨ commandCode (s.setup.shadow.get 2) = 2 →
      s.closesTaken = true) :
    exec (commandStep (commandCode (s.setup.shadow.get 2))) s =
      .next ((s.commandTaken n).dealWith (s.setup.shadow.get 2) (s.setup.shadow.get 3)).requestMirror := by
  have hready {codes : Nat → Bool} (hc : codes (commandCode (s.setup.shadow.get 2)) = true) :=
    s.commandReady_of_delivered h hc
  rw [← s.takeCommand_of_delivered h]
  unfold commandStep
  split
  case h_1 hcode => exact stepWhen_can _ s (hready (by simp [hcode]))
  case h_2 hcode =>
    refine stepWhen_can _ s ?_
    rw [hready (by simp [hcode]), hcloses (.inl hcode)]
    rfl
  case h_3 hcode =>
    refine stepWhen_can _ s ?_
    rw [hready (by simp [hcode]), hcloses (.inr hcode)]
    rfl
  case h_4 hcode => exact stepWhen_can _ s (hready (by simp [hcode]))
  case h_5 hcode => exact stepWhen_can _ s (hready (by simp [hcode]))
  case h_6 hcode => exact stepWhen_can _ s (hready (by simp [hcode]))
  case h_7 h0 h1 h2 h3 h4 h5 =>
    refine stepWhen_can _ s (hready ?_)
    simp only [imp_false] at h0 h1 h2 h3 h4 h5
    rw [decide_eq_true_eq]
    omega

/-- The step of a delivered command, in the form of a statement. -/
theorem exec_commandStep_of_eq {s t : State} {n : Notice} {code : Nat} (h : s.CommandDelivered n)
    (hcode : commandCode (s.setup.shadow.get 2) = code) (hcloses : code = 1 ∨ code = 2 → s.closesTaken = true)
    (e : (s.commandTaken n).dealWith (s.setup.shadow.get 2) (s.setup.shadow.get 3) = t) :
    ∃ m, exec (commandStep code) s = .next { t with alerts := { t.alerts with mirror := m } } := by
  subst hcode e
  exact ⟨_, (exec_commandStep h hcloses).trans (congrArg _ (requestMirror_eq _))⟩

theorem State.dealWith_noCommand {s : State} {word : Word} (arg : Word)
    (hp : s.setup.part = .unset ∨ s.setup.part = .active) (hc : commandCode word = 0) : s.dealWith word arg = s := by
  rcases hp with hp | hp <;> simp [State.dealWith, hp, hc]

/-- During APPLYING a command waits, and NO_COMMAND removes one that waits. -/
theorem State.dealWith_applying_eq {s : State} (word arg : Word) {p : Phase} (hp : s.setup.part = .applying p) :
    s.dealWith word arg = { s with
      setup := { s.setup with waiting := if commandCode word = 0 then none else some (word, arg) } } := by
  rw [State.dealWith, hp]

theorem State.command_undefined {s : State} {word : Word} (arg : Word) (h : 6 ≤ commandCode word) :
    s.command word arg = (s, .badArgument) := by
  unfold State.command
  split
  case h_6 => rfl
  all_goals omega

theorem commandStep_undefined {code : Nat} (h : 6 ≤ code) : commandStep code = .undefinedCommand := by
  unfold commandStep
  split
  case h_7 => rfl
  all_goals omega

/-- Settles O31: what each part state makes of a taken command. -/
theorem commandsAreRefusedWaitOrDoNothing : Obligations.CommandsAreRefusedWaitOrDoNothing := by
  unfold Obligations.CommandsAreRefusedWaitOrDoNothing
  intro s n word arg code hd hword harg hcode hcloses
  subst hword harg
  have hcode : commandCode (s.setup.shadow.get 2) = code := (commandCode_eq _).trans hcode.symm
  refine ⟨exec_commandStep_of_eq hd hcode hcloses rfl, fun hpart hzero => ?_, fun p hpart => ?_,
    fun hpart hnonzero => ?_, fun hpart hhigh => ?_⟩
  · subst hzero
    exact exec_commandStep_of_eq hd hcode hcloses (State.dealWith_noCommand (s := s.commandTaken n) _ hpart hcode)
  · have hwaits :=
      State.dealWith_applying_eq (s := s.commandTaken n) (s.setup.shadow.get 2) (s.setup.shadow.get 3) hpart
    rw [hcode] at hwaits
    exact exec_commandStep_of_eq hd hcode hcloses hwaits
  · exact exec_commandStep_of_eq hd hcode hcloses
      (State.dealWith_unset (s := s.commandTaken n) _ hpart (by rwa [hcode]))
  · have hundefined := State.command_undefined (s := s.commandTaken n) (s.setup.shadow.get 3) (by rwa [hcode])
    rw [← commandStep_undefined hhigh]
    exact exec_commandStep_of_eq hd hcode hcloses
      (State.dealWith_active (s := s.commandTaken n) hpart (by omega) hundefined)

/-! ### CLOSE_BINS (R102) -/

theorem Image.maskValid_iff (m : Image) (arg : Word) : m.maskValid arg = true ↔
    arg ≠ 0 ∧ arg.toNat < 65536 ∧ ∀ h : Fin 16, arg.getLsbD h = true → m.isHead h = true := by
  simp only [Image.maskValid, maskLines, allLines, Bool.and_eq_true, bne_iff_ne, decide_eq_true_eq, List.all_eq_true,
    List.mem_filter, List.mem_finRange, true_and, and_assoc]
  rfl

theorem State.command_closeBins {word : Word} (s : State) (arg : Word) (h : commandCode word = 1) :
    s.command word arg = s.closeNamed arg := by
  simp [State.command, h]

/-- Settles O32: the mask is tested as a whole, and only a valid one closes anything. -/
theorem closeBinsClosesTheNamedGroups : Obligations.CloseBinsClosesTheNamedGroups := by
  unfold Obligations.CloseBinsClosesTheNamedGroups
  intro s n word arg hd hcloses hpart hword harg hcode
  subst hword harg
  have hcode : commandCode (s.setup.shadow.get 2) = 1 := (commandCode_eq _).trans hcode
  have hcommand := (s.commandTaken n).command_closeBins (s.setup.shadow.get 3) hcode
  have hvalid := s.cfg.maskValid_iff (s.setup.shadow.get 3)
  refine ⟨fun h => ?_, fun h => ?_⟩
  · have hcommand := hcommand.trans (if_pos (hvalid.mpr h))
    exact exec_commandStep_of_eq (code := 1) hd hcode (fun _ => hcloses)
      (State.dealWith_active (s := s.commandTaken n) hpart (by rw [hcode]; decide) hcommand)
  · have hcommand := hcommand.trans (if_neg (mt hvalid.mp h))
    exact exec_commandStep_of_eq (code := 1) hd hcode (fun _ => hcloses)
      (State.dealWith_active (s := s.commandTaken n) hpart (by rw [hcode]; decide) hcommand)

end Sys2Proof.Machine
end

section
/-! SUPPORT. The drop of the hold request, RESTART, REPRIME and TRANSFER_COUNTERS (R36, R75, R103, R163, R178). -/

namespace Sys2Proof.Machine

/-! ### The drop of the hold request (R7, R9) -/

theorem State.dropRequest_idle {s : State} (h : s.intake.holdRequest = false) : s.dropRequest = s := by
  rw [State.dropRequest, h]
  rfl

theorem State.dropRequest_spilling {s : State} (h : s.intake.holdRequest = true) (hspill : s.pass.spilling = true) :
    s.dropRequest = { s with
      intake := { s.intake with holdRequest := false },
      pass := { s.pass with spilling := false },
      alerts := s.alerts.fall s.cfg .spilling } := by
  simp [State.dropRequest, h, hspill]

theorem State.dropRequest_waiting {s : State} (h : s.intake.holdRequest = true) (hspill : s.pass.spilling = false) :
    s.dropRequest = { s with
      intake := { s.intake with holdRequest := false },
      pass := { s.pass with releaseDue := s.pass.releaseDue || s.pass.heldWrite.isSome } } := by
  simp [State.dropRequest, h, hspill]

/-- The drop in one form: spill ends with its edge, or a waiting burst is marked for its release. -/
theorem State.dropRequest_form (s : State) : s.dropRequest = { s with
    intake := { s.intake with holdRequest := false },
    pass := { s.pass with
      spilling := s.pass.spilling && !s.intake.holdRequest,
      releaseDue := s.pass.releaseDue ||
        (s.intake.holdRequest && !s.pass.spilling && s.pass.heldWrite.isSome) },
    alerts := if s.intake.holdRequest = true ∧ s.pass.spilling = true then s.alerts.fall s.cfg .spilling
      else s.alerts } := by
  cases h : s.intake.holdRequest with
  | false =>
    rw [State.dropRequest_idle h]
    simp only [Bool.not_false, Bool.and_true, Bool.false_and, Bool.or_false, Bool.false_eq_true, false_and, if_false]
    rw [← h]
  | true =>
    cases hspill : s.pass.spilling with
    | false =>
      rw [State.dropRequest_waiting h hspill]
      simp [hspill]
    | true =>
      rw [State.dropRequest_spilling h hspill]
      simp

/-! ### The result of a command (R163) -/

theorem Alerts.has_withResult (a : Alerts) (word : Word) (r : CommandOutcome) (b : AlertBit) :
    (a.withResult word r).has b = (a.has b || decide (b = .commandDone)) := by
  rw [← Alerts.giveResult_eq_withResult]
  exact Alerts.has_latch _ _ _

/-- The state once a command's result is handed over. -/
def State.answeredWith (word : Word) (r : CommandOutcome) (s : State) : State :=
  { s with alerts := s.alerts.withResult word r }

/-- A delivered command of ACTIVE: its effect, and its result handed over. -/
theorem exec_commandStep_active {s t : State} {n : Notice} {r : CommandOutcome} {code : Nat} (h : s.CommandDelivered n)
    (hpart : s.setup.part = .active) (hcode : (s.setup.shadow.get 2).toNat % 256 = code) (hnonzero : code ≠ 0)
    (hcloses : code = 1 ∨ code = 2 → s.closesTaken = true)
    (he : (s.commandTaken n).command (s.setup.shadow.get 2) (s.setup.shadow.get 3) = (t, r)) :
    exec (commandStep code) s = .next (t.answeredWith (s.setup.shadow.get 2) r).requestMirror := by
  subst hcode
  rw [← commandCode_eq] at hcloses hnonzero ⊢
  rw [exec_commandStep h hcloses, State.dealWith_active (s := s.commandTaken n) hpart hnonzero he]
  rfl

theorem State.answeredWith_has (s : State) (word : Word) (r : CommandOutcome) (b : AlertBit) :
    (s.answeredWith word r).requestMirror.alerts.has b = (s.alerts.has b || decide (b = .commandDone)) :=
  (State.requestMirror_has _ b).trans (Alerts.has_withResult _ _ _ b)

/-- A handed-over result leaves the edge as it is. -/
theorem State.EdgeFollows.answered {both : Bool} {s t : State} (h : State.EdgeFollows both s t) (word : Word)
    (r : CommandOutcome) : State.EdgeFollows both s (t.answeredWith word r).requestMirror :=
  (h.congr (t' := t.answeredWith word r) rfl rfl rfl
    ((Alerts.has_withResult _ _ _ _).trans (Bool.or_false _)) id).request

/-! ### RESTART (R103) -/

/-- What RESTART makes of the state before its result is handed over. -/
def State.restarted (s : State) : State := { s with
  intake := { s.intake.restarted with holdRequest := false },
  pass := { s.pass with
    spilling := s.pass.spilling && !s.intake.holdRequest,
    releaseDue := s.pass.releaseDue || (s.intake.holdRequest && !s.pass.spilling && s.pass.heldWrite.isSome) },
  channels := { s.channels with meters := s.channels.restarted s.cfg },
  lines := { s.lines with
    lines := tabulate 16 (fun n => Line.restarted (s.cfg.kind n) s.lines.clock.toNat), handOver := [] },
  alerts := (Alerts.follow s.cfg .anyStale s.channels.anyStale
    { s.channels with meters := s.channels.restarted s.cfg : Channels }.anyStale
    (if s.intake.holdRequest = true ∧ s.pass.spilling = true then s.alerts.fall s.cfg .spilling
      else s.alerts)).restarted }

theorem State.restartUnits_eq (s : State) : s.restartUnits = (s.restarted, .done) := by
  unfold State.restartUnits
  rw [State.dropRequest_form]
  rfl

theorem State.command_restart {word : Word} (s : State) (arg : Word) (h : commandCode word = 2) :
    s.command word arg = s.restartUnits := by
  simp [State.command, h]

theorem State.restarted_has (s : State) (b : AlertBit) : s.restarted.alerts.has b = (s.alerts.has b ||
    (s.intake.holdRequest && s.pass.spilling && s.cfg.selectsBoth .spilling && decide (b = .spillEdge)) ||
    (((!s.channels.anyStale && s.restarted.channels.anyStale) ||
      (s.channels.anyStale && !s.restarted.channels.anyStale && s.cfg.selectsBoth .anyStale)) &&
      decide (b = .staleEdge))) := by
  refine (Alerts.has_follow _ _ _ _ _ b).trans ?_
  congr 1
  cases s.intake.holdRequest with
  | false => simp
  | true =>
    cases s.pass.spilling with
    | false => simp
    | true =>
      simp only [and_self, if_true, Bool.true_and]
      exact Alerts.has_fall _ _ _ _

/-- The table makes the edge that STALE_EDGE follows. -/
theorem State.restarted_edgeFollows (s : State) :
    State.EdgeFollows (s.cfg.selectsBoth .anyStale) s s.restarted := by
  constructor
  · rw [State.restarted_has]
    simp [and_assoc]
  · intro h
    show (Alerts.follow _ _ _ _ _).owed.realTime = true
    rw [Alerts.follow_realTime, Bool.or_eq_true]
    exact .inr (bne_iff_ne.mpr h)

theorem Alerts.restarted_counters (a : Alerts) (i : Fin 4) : a.restarted.counters[i] = { count := 0, latch := 0 } :=
  Vector.getElem_replicate _

theorem Alerts.restarted_owed {a : Alerts} (h : ∃ i : Fin 4, (a.counters[i]).latch ≠ 0) :
    a.restarted.owed.counters = true := by
  obtain ⟨i, hi⟩ := h
  show (a.owed.counters || a.counters.toList.any (fun c => c.latch != 0)) = true
  rw [Bool.or_eq_true, List.any_eq_true]
  exact .inr ⟨a.counters[i], Vector.mem_toList_iff.mpr (Vector.getElem_mem i.isLt), bne_iff_ne.mpr hi⟩

/-- The edges of a restart only latch and owe. -/
theorem State.restarted_alerts (s : State) : ∃ a, Alerts.Grew s.alerts a ∧ s.restarted.alerts = a.restarted := by
  refine ⟨_, ?_, rfl⟩
  refine Alerts.Grew.trans ?_ (Alerts.grew_follow _ _ _ _ _)
  split
  · exact Alerts.grew_fall _ _ _
  · exact .refl _

theorem State.restarted_owed {s : State} (h : ∃ i : Fin 4, (s.alerts.counters[i]).latch ≠ 0) :
    s.restarted.alerts.owed.counters = true := by
  obtain ⟨i, hi⟩ := h
  obtain ⟨a, hgrew, ha⟩ := s.restarted_alerts
  rw [ha]
  exact Alerts.restarted_owed ⟨i, (congrArg (fun v : Vector Counter 4 => (v[i]).latch) hgrew.counters).trans_ne hi⟩

theorem State.restarted_reportTimer (s : State) : s.restarted.alerts.reportTimer = s.alerts.reportTimer := by
  obtain ⟨a, hgrew, ha⟩ := s.restarted_alerts
  rw [ha]
  exact hgrew.reportTimer

theorem State.restarted_readHold (s : State) : s.restarted.alerts.readHold = s.alerts.readHold := by
  obtain ⟨a, hgrew, ha⟩ := s.restarted_alerts
  rw [ha]
  exact (congrArg Alerts.readHold hgrew.frame :)

/-- Settles O33: the step hands over DONE on the restarted state, and each unit's part is read off it. -/
theorem restartClearsTheAccounts : Obligations.RestartClearsTheAccounts := by
  unfold Obligations.RestartClearsTheAccounts
  intro s n word hd hcloses hpart hword hcode
  subst hword
  let u := s.commandTaken n
  have hcommand := (u.command_restart (s.setup.shadow.get 3) ((commandCode_eq _).trans hcode)).trans u.restartUnits_eq
  have hexec := exec_commandStep_active hd hpart hcode (by decide) (fun _ => hcloses) hcommand
  have hhas := u.restarted.answeredWith_has (s.setup.shadow.get 2) .done
  have hedge := u.restarted_edgeFollows.answered (s.setup.shadow.get 2) .done
  refine ⟨_, hexec, rfl, rfl, rfl, fun i => ?_, fun e => ?_, rfl, rfl, fun k => ?_, rfl, rfl, rfl, rfl, fun i => ?_,
    fun h => ?_, ?_, ?_, ?_, ?_, fun b hdone hspill hstale => ?_, hedge.edge, hedge.owed, ?_, rfl, rfl, rfl, rfl, rfl,
    rfl, fun h => ?_, fun h hspill hheld => ?_, rfl, rfl, rfl, rfl, rfl⟩
  · exact Vector.getElem_replicate _
  · exact tabulate_get _ _ _
  · exact tabulate_get _ _ _
  · rw [requestMirror_counters]
    obtain ⟨a, -, ha⟩ := u.restarted_alerts
    exact (congrArg (fun b : Alerts => b.counters[i]) ha).trans (a.restarted_counters i)
  · rw [requestMirror_owed]
    exact u.restarted_owed h
  · rw [hhas]
    simp
  · rw [requestMirror_commandResult]
    rfl
  · rw [requestMirror_reportTimer]
    exact u.restarted_reportTimer
  · rw [requestMirror_readHold]
    exact u.restarted_readHold
  · rw [hhas, State.restarted_has]
    simp [hdone, hspill, hstale]
    rfl
  · rw [hhas, State.restarted_has]
    simp [and_assoc]
    rfl
  · exact (congrArg (s.pass.spilling && !·) h).trans (Bool.and_false _)
  · show (s.pass.releaseDue || (s.intake.holdRequest && !s.pass.spilling && s.pass.heldWrite.isSome)) = true
    rw [h, hspill, hheld]
    exact Bool.or_true _

/-! ### REPRIME and TRANSFER_COUNTERS (R75, R178) -/

theorem State.command_reprime {word : Word} (s : State) (arg : Word) (h : commandCode word = 3) :
    s.command word arg = s.reprimeEntry arg := by
  simp [State.command, h]

theorem State.command_transfer {word : Word} (s : State) (arg : Word) (h : commandCode word = 4) :
    s.command word arg = s.transferManual := by
  simp [State.command, h]

theorem State.reprimeEntry_enabled {s : State} {arg : Word} {e : Fin 256} (he : arg.toNat = e.val)
    (henabled : s.cfg.channelEnabled e = true) : s.reprimeEntry arg =
      (s.withMeters (s.channels.meters.set e (s.channels.meters[e]).unseen), .done) := by
  simp only [State.reprimeEntry, he, e.isLt, dif_pos, henabled, if_true]

theorem State.reprimeEntry_refused {s : State} {arg : Word}
    (h : ∀ e : Fin 256, arg.toNat = e.val → s.cfg.channelEnabled e = false) :
    s.reprimeEntry arg = (s, .badArgument) := by
  unfold State.reprimeEntry
  split
  case isTrue hlt =>
    dsimp only
    rw [h ⟨arg.toNat, hlt⟩ rfl]
    rfl
  case isFalse => rfl

/-- Settles O34: the table under the REPRIMEd entry, with its edge, and the counters of manual mode. -/
theorem reprimeAndTransferActOnWhatTheyName : Obligations.ReprimeAndTransferActOnWhatTheyName := by
  unfold Obligations.ReprimeAndTransferActOnWhatTheyName
  refine ⟨fun s n word arg hd hpart hword harg hcode => ⟨fun e he henabled => ?_, fun hrefused => ?_⟩,
    fun s n word hd hpart hword hcode => ?_⟩
  · subst hword harg
    let u := s.commandTaken n
    let x := u.withMeters (u.channels.meters.set e (u.channels.meters[e]).unseen)
    have hcommand : u.command (s.setup.shadow.get 2) (s.setup.shadow.get 3) = (x, .done) :=
      (u.command_reprime _ ((commandCode_eq _).trans hcode)).trans (State.reprimeEntry_enabled he henabled)
    have hexec := exec_commandStep_active hd hpart hcode (by decide) nofun hcommand
    have hhas := x.answeredWith_has (s.setup.shadow.get 2) .done
    have hedge := (u.edgeFollows_withMeters (u.channels.meters.set e (u.channels.meters[e]).unseen)).answered
      (s.setup.shadow.get 2) .done
    refine ⟨_, hexec, rfl, ?_, ?_, hedge.edge, hedge.owed, fun b hdone hstale => ?_, ?_⟩
    · rw [requestMirror_commandResult]
      rfl
    · rw [hhas]
      simp
    · rw [hhas, decide_eq_false hdone, Bool.or_false]
      exact State.withMeters_has_of_ne _ u hstale
    · rw [requestMirror_counters]
      exact (Alerts.grew_follow _ _ _ _ _).counters
  · subst hword harg
    let u := s.commandTaken n
    have hcommand := (u.command_reprime (s.setup.shadow.get 3) ((commandCode_eq _).trans hcode)).trans
      (State.reprimeEntry_refused hrefused)
    have hexec := exec_commandStep_active hd hpart hcode (by decide) nofun hcommand
    exact ⟨_, hexec.trans (congrArg _ (requestMirror_eq _))⟩
  · subst hword
    let u := s.commandTaken n
    let x : State := { u with alerts := u.alerts.transfer (fun i => !u.cfg.automatic i) }
    have hcommand : u.command (s.setup.shadow.get 2) (s.setup.shadow.get 3) = (x, .done) :=
      u.command_transfer _ ((commandCode_eq _).trans hcode)
    have hexec := exec_commandStep_active hd hpart hcode (by decide) nofun hcommand
    have hhas := x.answeredWith_has (s.setup.shadow.get 2) .done
    have hcounters : (x.answeredWith (s.setup.shadow.get 2) .done).requestMirror.alerts.counters = x.alerts.counters :=
      requestMirror_counters _
    refine ⟨_, hexec, rfl, fun i => ?_, ?_, ?_, ?_, fun b hdone => ?_⟩
    · rw [hcounters]
      refine (Alerts.transfer_counters _ _ i).trans ?_
      have hautomatic : u.cfg.automatic i = true ↔ s.cfg.counterMode i = 1 := beq_iff_eq
      by_cases hmode : s.cfg.counterMode i = 1
      · rw [hautomatic.mpr hmode, if_pos hmode]
        rfl
      · rw [Bool.eq_false_iff.mpr (mt hautomatic.mp hmode), if_neg hmode]
        rfl
    · rw [hcounters, requestMirror_owed]
      exact Alerts.transfer_owedCounters_iff _ _
    · rw [requestMirror_commandResult]
      rfl
    · rw [hhas]
      simp
    · rw [hhas, decide_eq_false hdone, Bool.or_false]
      rfl

end Sys2Proof.Machine
end

section
/-! SUPPORT. The meter machine: screening, the state table and the conversion (R56 to R72). -/

namespace Sys2Proof.Machine

/-! ### Screening (R56 to R59) -/

theorem TapRecord.quality_of_nil {r : TapRecord} (h : r.tags = []) : r.quality = .good := by
  rw [TapRecord.quality, h]

theorem TapRecord.quality_of_cons {r : TapRecord} {t : Word} {ts : List Word} (h : r.tags = t :: ts) :
    r.quality = if t.toNat % 256 = 0 then .good else if t.toNat % 256 = 1 then .estimated
      else if t.toNat % 256 = 3 then .test else .fault := by
  have hbits : bits t 7 0 = t.toNat % 256 := commandCode_eq t
  rw [TapRecord.quality, h]
  simp only [hbits]
  split
  case h_1 hcode => simp [hcode]
  case h_2 hcode => simp [hcode]
  case h_3 hcode => simp [hcode]
  case h_4 h0 h1 h3 => rw [if_neg h0, if_neg h1, if_neg h3]

theorem Meter.handle_test {c : ChannelSetup} {r : TapRecord} (k : Nat) (m : Meter) (h : r.quality = .test) :
    m.handle c k r = .quiet m := if_pos h

theorem Meter.handle_first {c : ChannelSetup} {r : TapRecord} {m : Meter} (k : Nat) (htest : r.quality ≠ .test)
    (hlast : m.lastSequence = none) : m.handle c k r = m.judged c k r := by
  rw [Meter.handle, if_neg htest, hlast]

/-- What the sequence check makes of a record after the first. -/
theorem Meter.handle_next {c : ChannelSetup} {r : TapRecord} {m : Meter} {last : BitVec 8} (k : Nat)
    (htest : r.quality ≠ .test) (hlast : m.lastSequence = some last) : m.handle c k r =
      if (r.sequence - last).toNat = 0 ∨ 128 ≤ (r.sequence - last).toNat then
        { Handling.quiet m with defects := [.duplicateLate] }
      else if (r.sequence - last).toNat = 1 then { m with lastSequence := some r.sequence }.judged c k r
      else { { m with lastSequence := some r.sequence }.judged c k r with
        defects := .sequenceGap :: ({ m with lastSequence := some r.sequence }.judged c k r).defects } := by
  rw [Meter.handle, if_neg htest, hlast]
  rfl

theorem Meter.handle_late {c : ChannelSetup} {r : TapRecord} {m : Meter} {last : BitVec 8} (k : Nat)
    (htest : r.quality ≠ .test) (hlast : m.lastSequence = some last)
    (h : r.sequence = last ∨ 128 ≤ (r.sequence - last).toNat) :
    m.handle c k r = { Handling.quiet m with defects := [.duplicateLate] } := by
  rw [Meter.handle_next k htest hlast, if_pos]
  rcases h with rfl | h
  · exact .inl (by simp)
  · exact .inr h

theorem Meter.handle_inSequence {c : ChannelSetup} {r : TapRecord} {m : Meter} {last : BitVec 8} (k : Nat)
    (htest : r.quality ≠ .test) (hlast : m.lastSequence = some last) (h : (r.sequence - last).toNat = 1) :
    m.handle c k r = { m with lastSequence := some r.sequence }.judged c k r := by
  rw [Meter.handle_next k htest hlast, if_neg (by omega), if_pos h]

theorem Meter.handle_gap {c : ChannelSetup} {r : TapRecord} {m : Meter} {last : BitVec 8} (k : Nat)
    (htest : r.quality ≠ .test) (hlast : m.lastSequence = some last) (hlow : 2 ≤ (r.sequence - last).toNat)
    (hhigh : (r.sequence - last).toNat < 128) :
    m.handle c k r = { { m with lastSequence := some r.sequence }.judged c k r with
      defects := .sequenceGap :: ({ m with lastSequence := some r.sequence }.judged c k r).defects } := by
  rw [Meter.handle_next k htest hlast, if_neg (by omega), if_neg (by omega)]

theorem Meter.judged_fault {c : ChannelSetup} {r : TapRecord} (k : Nat) (m : Meter) (h : r.quality = .fault) :
    m.judged c k r = { Handling.quiet m with defects := [.faultTagged] } := if_pos h

theorem Meter.judged_sound {c : ChannelSetup} {r : TapRecord} (k : Nat) (m : Meter) (h : r.quality ≠ .fault) :
    m.judged c k r = m.machine c k r.kind r.sequence (r.value.toNat % 2 ^ c.width) := if_neg h

/-! ### The state table (R60 to R68) -/

theorem ChannelSetup.forward_eq (c : ChannelSetup) {a : Nat} (v : Nat) (h : a < 2 ^ c.width) :
    c.forward a v = (v + 2 ^ c.width - a) % 2 ^ c.width := by
  rw [ChannelSetup.forward, ChannelSetup.modulus, Nat.mod_eq_of_lt h]

theorem Meter.machine_reading {c : ChannelSetup} {k : Nat} {seq : BitVec 8} {v : Nat} {m : Meter} :
    (m.state = .unseen → m.machine c k .reading seq v = .quiet { m.adopt c.timeout v with lastSequence := some seq }) ∧
    (m.state = .live → m.machine c k .reading seq v = m.readLive c v) ∧
    (m.state = .suspect → m.machine c k .reading seq v = m.readSuspect c k v) ∧
    (m.state = .stale → m.machine c k .reading seq v = m.readStale c v) := by
  unfold Meter.machine
  refine ⟨fun h => ?_, fun h => ?_, fun h => ?_, fun h => ?_⟩ <;> rw [h]

theorem Meter.machine_resetNotice {c : ChannelSetup} {k : Nat} {seq : BitVec 8} {v : Nat} {m : Meter}
    (h : m.state ≠ .retired) : m.machine c k .resetNotice seq v =
      .quiet { m.adopt c.timeout v with residue := 0, lastSequence := some seq } := by
  unfold Meter.machine
  cases hstate : m.state with
  | retired => exact absurd hstate h
  | unseen => rfl
  | live => rfl
  | suspect => rfl
  | stale => rfl

/-! ### The conversion (R71, R72) -/

theorem energyClass_eq (role : Nat) :
    energyClass role = if role = 0 then .thermal else if role = 1 then .electric else .auxiliary := by
  unfold energyClass
  split
  case h_1 => rfl
  case h_2 => rfl
  case h_3 h0 h1 => rw [if_neg h0, if_neg h1]

theorem massRole_eq (role : Nat) : massRole role = if role = 0 then .pulled else .packed := by
  unfold massRole
  split
  case h_1 => rfl
  case h_2 h0 => rw [if_neg h0]

/-- A conversion by the factor keeps the whole product in amount and residue. -/
theorem ChannelSetup.convert_factor {c : ChannelSetup} (weight residue d : Nat)
    (h : c.kind = .energy ∨ c.kind = .massDirect) :
    (c.convert weight residue d).2.1 * 65536 + (c.convert weight residue d).2.2 = d * c.factor + residue ∧
    (c.convert weight residue d).2.2 < 65536 := by
  have hsplit : (d * c.factor + residue) / 65536 * 65536 + (d * c.factor + residue) % 65536 = d * c.factor + residue :=
    Nat.div_add_mod' _ _
  rcases h with h | h <;>
  · rw [ChannelSetup.convert, h]
    exact ⟨hsplit, Nat.mod_lt _ (by decide)⟩

theorem ChannelSetup.convert_energy {c : ChannelSetup} (weight residue d : Nat) (h : c.kind = .energy) :
    (c.convert weight residue d).1 = energyClass c.role := by
  rw [ChannelSetup.convert, h]

theorem ChannelSetup.convert_massDirect {c : ChannelSetup} (weight residue d : Nat) (h : c.kind = .massDirect) :
    (c.convert weight residue d).1 = massRole c.role := by
  rw [ChannelSetup.convert, h]

theorem ChannelSetup.convert_massCount {c : ChannelSetup} {weight : Nat} (residue d : Nat) (h : c.kind = .massCount)
    (hweight : weight ≠ 0) : c.convert weight residue d = (massRole c.role, d * weight, residue) := by
  rw [ChannelSetup.convert, h]
  exact if_neg hweight

theorem ChannelSetup.convert_unweighed {c : ChannelSetup} {weight : Nat} (residue d : Nat) (h : c.kind = .massCount)
    (hweight : weight = 0) : c.convert weight residue d = (.unweighed, d, residue) := by
  rw [ChannelSetup.convert, h]
  exact if_pos hweight

/-- Settles O37: screening by quality and sequence, the table by state and distance, the conversion by kind. -/
theorem meterMachineFollowsTheStateTable : Obligations.MeterMachineFollowsTheStateTable := by
  unfold Obligations.MeterMachineFollowsTheStateTable
  refine ⟨?_, ?_, ?_⟩
  · intro c k r m unchanged
    refine ⟨TapRecord.quality_of_nil, fun t ts => TapRecord.quality_of_cons, Meter.handle_test k m,
      fun hfault hlast => ?_, fun htest hfault hlast => ?_, fun last htest hlast => ⟨Meter.handle_late k htest hlast,
        fun hfault hnext => ?_, fun hfault hlow hhigh => ?_, fun hfault hnext => ?_, fun hfault hlow hhigh => ?_⟩⟩
    · have htest : r.quality ≠ .test := by rw [hfault]; decide
      rw [Meter.handle_first k htest hlast, Meter.judged_fault k m hfault]
      rfl
    · rw [Meter.handle_first k htest hlast, Meter.judged_sound k m hfault]
    · rw [Meter.handle_inSequence k htest hlast hnext, Meter.judged_fault k _ hfault]
      rfl
    · rw [Meter.handle_gap k htest hlast hlow hhigh, Meter.judged_fault k _ hfault]
      rfl
    · rw [Meter.handle_inSequence k htest hlast hnext, Meter.judged_sound k _ hfault]
    · refine ⟨_, rfl, ?_⟩
      rw [Meter.handle_gap k htest hlast hlow hhigh, Meter.judged_sound k _ hfault]
  · intro c k seq v m hv hbaseline d adopted doubted machine
    obtain ⟨hunseen, hlive, hsuspect, hstale⟩ := Meter.machine_reading (c := c) (k := k) (seq := seq) (v := v) (m := m)
    have hd : c.forward m.baseline v = d := c.forward_eq v hbaseline
    refine ⟨hunseen, fun hs hle => (hlive hs).trans ?_, fun hs hover htol => (hlive hs).trans ?_,
      fun hs hover htol => (hlive hs).trans ?_, fun hs hle => (hsuspect hs).trans ?_,
      fun cand n hs hcand hlt hn hover => ?_, fun hs hle => (hstale hs).trans ?_,
      fun hs hover => (hstale hs).trans ?_, Meter.machine_resetNotice⟩
    · rw [Meter.readLive, hd]
      exact if_pos hle
    · rw [Meter.readLive, hd]
      exact (if_neg (Nat.not_le.mpr hover)).trans (if_pos htol)
    · rw [Meter.readLive, hd]
      exact (if_neg (Nat.not_le.mpr hover)).trans (if_neg (Nat.not_le.mpr htol))
    · rw [Meter.readSuspect, hd]
      exact if_pos hle
    · have hread : machine = if (v + 2 ^ c.width - cand) % 2 ^ c.width ≤ c.ceiling then
          (if k ≤ n + 1 then { meter := adopted, defects := [], reprimed := true, counts := none }
            else { meter := doubted (n + 1), defects := [], reprimed := false, counts := none })
          else { meter := doubted 1, defects := [.implausible], reprimed := false, counts := none } := by
        refine (hsuspect hs).trans ?_
        rw [Meter.readSuspect, hd, hcand, hn, Option.getD_some, Option.getD_some, c.forward_eq v hlt]
        exact if_neg (Nat.not_le.mpr hover)
      refine ⟨fun hnear hreached => ?_, fun hnear hshort => ?_, fun hfar => ?_⟩
      · rw [hread, if_pos hnear, if_pos hreached]
      · rw [hread, if_pos hnear, if_neg (Nat.not_le.mpr hshort)]
      · rw [hread, if_neg (Nat.not_le.mpr hfar)]
    · rw [Meter.readStale, hd]
      exact if_pos hle
    · rw [Meter.readStale, hd]
      exact if_neg (Nat.not_le.mpr hover)
  · intro c weight residue d q
    refine ⟨ChannelSetup.convert_factor weight residue d, fun hkind => ?_, fun hkind => ?_,
      fun hkind hweight => ?_, fun hkind hweight => ChannelSetup.convert_unweighed residue d hkind hweight⟩
    · exact (ChannelSetup.convert_energy weight residue d hkind).trans (energyClass_eq _)
    · rcases hkind with hkind | ⟨hkind, hweight⟩
      · exact (ChannelSetup.convert_massDirect weight residue d hkind).trans (massRole_eq _)
      · exact (congrArg Prod.fst (ChannelSetup.convert_massCount residue d hkind hweight)).trans (massRole_eq _)
    · have hconvert := ChannelSetup.convert_massCount residue d hkind hweight
      exact ⟨congrArg (·.2.1) hconvert, congrArg (·.2.2) hconvert⟩

end Sys2Proof.Machine
end

section
/-! SUPPORT. A record taken from the intake queue: the removal, the handling, and the alerts (R33, R35, R53, R74). -/

namespace Sys2Proof.Machine

/-! ### The removal (R35) -/

/-- A removal that leaves `n` records brings the queue to the low-water mark and drops the hold request. -/
def State.drops (n : Nat) (s : State) : Bool := s.intake.holdRequest && decide (n ≤ s.cfg.lowWater)

theorem State.drops_iff (n : Nat) (s : State) :
    s.drops n = true ↔ s.intake.holdRequest = true ∧ n ≤ s.cfg.lowWater := by
  rw [State.drops, Bool.and_eq_true, decide_eq_true_eq]

/-- The state once the head record has left the queue. -/
def State.removed (rest : List TapRecord) (s : State) : State := { s with
  intake := { s.intake with
    queue := rest, holdRequest := s.intake.holdRequest && decide (s.cfg.lowWater < rest.length) },
  pass := { s.pass with
    spilling := s.pass.spilling && !s.drops rest.length,
    releaseDue := s.pass.releaseDue || (s.drops rest.length && !s.pass.spilling && s.pass.heldWrite.isSome) },
  alerts := if s.drops rest.length = true ∧ s.pass.spilling = true then s.alerts.fall s.cfg .spilling
    else s.alerts }

theorem State.afterRemoval_form (rest : List TapRecord) (s : State) :
    ({ s with intake := { s.intake with queue := rest } } : State).afterRemoval = s.removed rest := by
  unfold State.afterRemoval State.removed
  by_cases hlow : rest.length ≤ s.cfg.lowWater
  · have hdrops : s.drops rest.length = s.intake.holdRequest := by simp [State.drops, hlow]
    have hkeep : decide (s.cfg.lowWater < rest.length) = false := by simpa using hlow
    rw [hdrops, hkeep, Bool.and_false]
    exact (if_pos hlow).trans (State.dropRequest_form _)
  · have hdrops : s.drops rest.length = false := by simp [State.drops, hlow]
    have hkeep : decide (s.cfg.lowWater < rest.length) = true := by simpa using hlow
    rw [hdrops, hkeep, Bool.and_true]
    refine (if_neg hlow).trans ?_
    simp

theorem State.removed_grew (rest : List TapRecord) (s : State) : Alerts.Grew s.alerts (s.removed rest).alerts := by
  unfold State.removed
  dsimp only
  split
  · exact Alerts.grew_fall _ _ _
  · exact .refl _

theorem State.removed_has (rest : List TapRecord) (s : State) (b : AlertBit) : (s.removed rest).alerts.has b =
    (s.alerts.has b || (s.drops rest.length && s.pass.spilling && s.cfg.selectsBoth .spilling &&
      decide (b = .spillEdge))) := by
  unfold State.removed
  dsimp only
  split
  case isTrue h =>
    obtain ⟨hdrops, hspill⟩ := h
    rw [hdrops, hspill]
    exact Alerts.has_fall _ _ _ _
  case isFalse h =>
    have hno : (s.drops rest.length && s.pass.spilling) = false := by
      rw [← Bool.not_eq_true, Bool.and_eq_true]
      exact h
    rw [hno, Bool.false_and, Bool.false_and, Bool.or_false]

/-! ### The handling (R53, R64, R73, R74) -/

/-- The reprime notice of the handling saturates at its line. -/
def State.noticeSaturates (r : TapRecord) (e : Fin 256) (s : State) : Bool :=
  let c := s.cfg.channel e
  ((s.channels.meters[e]).handle c s.cfg.reprimeThreshold r).reprimed && (s.lines.lines[c.line]).reprimeNotice.2

/-- The credit of the handling, if any, saturates at its line. -/
def State.creditSaturates (r : TapRecord) (e : Fin 256) (s : State) : Bool :=
  let c := s.cfg.channel e
  let h := (s.channels.meters[e]).handle c s.cfg.reprimeThreshold r
  let l := s.lines.lines[c.line]
  let l1 := if h.reprimed then l.reprimeNotice.1 else l
  match h.counts with
  | none => false
  | some (d, carried) =>
    let q := c.convert l.unitWeight h.meter.residue d
    decide (q.2.1 ≠ 0) && (l1.credit (s.cfg.kind c.line) {
      quantity := q.1, amount := q.2.1, estimated := r.quality == Quality.estimated, carriedIn := carried }).2

theorem State.creditSaturates_uncounted {r : TapRecord} {e : Fin 256} {s : State}
    (hc : ((s.channels.meters[e]).handle (s.cfg.channel e) s.cfg.reprimeThreshold r).counts = none) :
    s.creditSaturates r e = false := by
  unfold State.creditSaturates
  simp only [hc]

theorem State.creditSaturates_counted_iff {r : TapRecord} {e : Fin 256} {s : State} {d : Nat} {carried : Bool}
    (hc : ((s.channels.meters[e]).handle (s.cfg.channel e) s.cfg.reprimeThreshold r).counts = some (d, carried)) :
    let c := s.cfg.channel e
    let h := (s.channels.meters[e]).handle c s.cfg.reprimeThreshold r
    let l := s.lines.lines[c.line]
    let q := c.convert l.unitWeight h.meter.residue d
    s.creditSaturates r e = true ↔ q.2.1 ≠ 0 ∧
      ((if h.reprimed then l.reprimeNotice.1 else l).credit (s.cfg.kind c.line) {
        quantity := q.1, amount := q.2.1, estimated := r.quality == Quality.estimated,
        carriedIn := carried }).2 = true := by
  intro c h l q
  unfold State.creditSaturates
  simp only [hc, Bool.and_eq_true, decide_eq_true_eq]
  rfl

/-- The entry's new meter state written, and the defects and the reprime of the handling `h` reported. -/
def State.screened (e : Fin 256) (h : Handling) (M : Meter) (s : State) : State :=
  let s1 := s.withMeters (s.channels.meters.set e M)
  { s1 with alerts := (s1.alerts.reportAll s.cfg h.defects).latchIf h.reprimed .reprimed }

/-- The reprime notice delivered to line `n`, where there is one. -/
def State.noticed (n : Fin 16) (reprimed : Bool) (s : State) : State :=
  if reprimed then s.withBooks (s.books.reprimeNotice n) else s

theorem State.noticed_alerts (n : Fin 16) (reprimed : Bool) (s : State) : (s.noticed n reprimed).alerts =
    s.alerts.latchIf (reprimed && (s.lines.lines[n]).reprimeNotice.2) .saturation := by
  cases reprimed <;> rfl

theorem State.noticed_line (n : Fin 16) (reprimed : Bool) (s : State) : (s.noticed n reprimed).lines.lines[n] =
    if reprimed then (s.lines.lines[n]).reprimeNotice.1 else s.lines.lines[n] := by
  cases reprimed
  · rfl
  · exact set_get_self _ _ _

theorem State.noticed_frame (n : Fin 16) (reprimed : Bool) (s : State) :
    (s.noticed n reprimed).channels = s.channels ∧ (s.noticed n reprimed).setup = s.setup := by
  cases reprimed <;> exact ⟨rfl, rfl⟩

theorem State.credited_alerts (m : Image) (n : Fin 16) (c : Credit) (s : State) :
    (s.withBooks (s.books.credit m n c)).alerts =
      s.alerts.latchIf ((s.lines.lines[n]).credit (m.kind n) c).2 .saturation := rfl

theorem State.credited_channels (m : Image) (n : Fin 16) (c : Credit) (s : State) :
    (s.withBooks (s.books.credit m n c)).channels = s.channels := rfl

/-- A handling without counts stops at the notice. -/
theorem State.handleRecord_uncounted {r : TapRecord} {e : Fin 256} {s : State} {h : Handling}
    (hh : (s.channels.meters[e]).handle (s.cfg.channel e) s.cfg.reprimeThreshold r = h) (hc : h.counts = none) :
    s.handleRecord r e = (s.screened e h h.meter).noticed (s.cfg.channel e).line h.reprimed := by
  unfold State.handleRecord
  simp only [hh, hc]
  rfl

/-- Counts are converted; an amount is credited after the notice. -/
theorem State.handleRecord_counted {r : TapRecord} {e : Fin 256} {s : State} {h : Handling} {d : Nat} {carried : Bool}
    {q : Quantity × Nat × Nat}
    (hh : (s.channels.meters[e]).handle (s.cfg.channel e) s.cfg.reprimeThreshold r = h)
    (hc : h.counts = some (d, carried))
    (hq : (s.cfg.channel e).convert (s.lines.lines[(s.cfg.channel e).line]).unitWeight h.meter.residue d = q) :
    s.handleRecord r e =
      let u := (s.screened e h { h.meter with residue := q.2.2 }).noticed (s.cfg.channel e).line h.reprimed
      if q.2.1 = 0 then u
      else u.withBooks (u.books.credit s.cfg (s.cfg.channel e).line {
        quantity := q.1, amount := q.2.1, estimated := r.quality == Quality.estimated, carriedIn := carried }) := by
  unfold State.handleRecord
  simp only [hh, hc, hq]
  rfl

/-- The alerts after a handling: the edge, the defects, the reprime, and what saturated at the line. -/
theorem State.handleRecord_alerts {r : TapRecord} {e : Fin 256} {s : State} {h : Handling}
    (hh : (s.channels.meters[e]).handle (s.cfg.channel e) s.cfg.reprimeThreshold r = h) :
    (s.handleRecord r e).alerts =
      (((((s.alerts.follow s.cfg .anyStale s.channels.anyStale (s.handleRecord r e).channels.anyStale).reportAll s.cfg
        h.defects).latchIf h.reprimed .reprimed).latchIf (s.noticeSaturates r e) .saturation).latchIf
        (s.creditSaturates r e) .saturation) := by
  unfold State.noticeSaturates State.creditSaturates
  simp only [hh]
  rcases hc : h.counts with _ | ⟨d, carried⟩
  · rw [State.handleRecord_uncounted hh hc, State.noticed_alerts, (State.noticed_frame _ _ _).1]
    rfl
  · obtain ⟨q, hq⟩ : ∃ q, (s.cfg.channel e).convert (s.lines.lines[(s.cfg.channel e).line]).unitWeight
      h.meter.residue d = q := ⟨_, rfl⟩
    rw [State.handleRecord_counted hh hc hq]
    simp only [hq]
    have hline := State.noticed_line (s.cfg.channel e).line h.reprimed
      (s.screened e h { h.meter with residue := q.2.2 })
    have halerts := State.noticed_alerts (s.cfg.channel e).line h.reprimed
      (s.screened e h { h.meter with residue := q.2.2 })
    have hchannels := (State.noticed_frame (s.cfg.channel e).line h.reprimed
      (s.screened e h { h.meter with residue := q.2.2 })).1
    by_cases hz : q.2.1 = 0
    · rw [if_pos hz, hchannels, halerts, decide_eq_false (not_not.mpr hz)]
      rfl
    · rw [if_neg hz, decide_eq_true hz, Bool.true_and]
      rw [State.credited_channels, State.credited_alerts, hline, halerts, hchannels]
      rfl

/-! ### Bits and counters after reports (R37, R74, R177) -/

theorem Alerts.report_counters_congr {a b : Alerts} (m : Image) (c : DefectClass) (h : a.counters = b.counters) :
    (a.report m c).counters = (b.report m c).counters := by
  refine Vector.ext fun i hi => ?_
  have ha := a.report_counters m c ⟨i, hi⟩
  have hb := b.report_counters m c ⟨i, hi⟩
  rw [h] at ha
  exact ha.trans hb.symm

theorem Alerts.reportAll_counters_congr (m : Image) (cs : List DefectClass) : ∀ {a b : Alerts},
    a.counters = b.counters → (a.reportAll m cs).counters = (b.reportAll m cs).counters := by
  induction cs with
  | nil => exact id
  | cons c cs ih => exact fun h => ih (Alerts.report_counters_congr m c h)

theorem Alerts.has_report_mono {m : Image} {c : DefectClass} {a : Alerts} {b : AlertBit} (h : a.has b = true) :
    (a.report m c).has b = true := by
  rw [Alerts.has_report, h]
  rfl

theorem Alerts.has_report_bit {m : Image} {c : DefectClass} {a : Alerts} {b : AlertBit} (h : c.bit = some b) :
    (a.report m c).has b = true := by
  rw [Alerts.has_report, h]
  simp

theorem Alerts.has_reportAll_mono {m : Image} {b : AlertBit} (cs : List DefectClass) : ∀ {a : Alerts},
    a.has b = true → (a.reportAll m cs).has b = true := by
  induction cs with
  | nil => exact id
  | cons c cs ih => exact fun h => ih (Alerts.has_report_mono h)

theorem Alerts.has_reportAll_bit {m : Image} {b : AlertBit} {d : DefectClass} (hb : d.bit = some b)
    {cs : List DefectClass} : ∀ (a : Alerts), d ∈ cs → (a.reportAll m cs).has b = true := by
  induction cs with
  | nil => exact fun _ h => absurd h List.not_mem_nil
  | cons c cs ih =>
    intro a h
    rcases List.mem_cons.mp h with rfl | h
    · exact Alerts.has_reportAll_mono cs (Alerts.has_report_bit hb)
    · exact ih _ h

theorem Alerts.has_reportAll_only {m : Image} {b : AlertBit} (hb : b ≠ .counterFull) {cs : List DefectClass} :
    ∀ {a : Alerts}, (a.reportAll m cs).has b = true → a.has b = true ∨ ∃ d ∈ cs, d.bit = some b := by
  induction cs with
  | nil => exact .inl
  | cons c cs ih =>
    intro a h
    rcases ih h with h | ⟨d, hd, hbit⟩
    · by_cases hc : c.bit = some b
      · exact .inr ⟨c, List.mem_cons_self, hc⟩
      · rw [Alerts.has_report_of_ne hc hb] at h
        exact .inl h
    · exact .inr ⟨d, List.mem_cons_of_mem _ hd, hbit⟩

/-- A bit that no class names is left by reports. -/
theorem Alerts.has_reportAll_of_unnamed {m : Image} {b : AlertBit} (hb : b ≠ .counterFull)
    (hnamed : ∀ d : DefectClass, d.bit ≠ some b) (cs : List DefectClass) (a : Alerts) :
    (a.reportAll m cs).has b = a.has b := by
  refine Bool.eq_iff_iff.mpr ⟨fun h => ?_, Alerts.has_reportAll_mono cs⟩
  exact (Alerts.has_reportAll_only hb h).resolve_right fun ⟨d, _, hd⟩ => hnamed d hd

theorem DefectClass.bit_ne_saturation (d : DefectClass) : d.bit ≠ some .saturation := by
  cases d <;> decide

theorem DefectClass.bit_ne_spillEdge (d : DefectClass) : d.bit ≠ some .spillEdge := by
  cases d <;> decide

theorem DefectClass.bit_ne_staleEdge (d : DefectClass) : d.bit ≠ some .staleEdge := by
  cases d <;> decide

/-! ### The alerts of a handling -/

/-- The alerts of a handling before SATURATION and REPRIMED. -/
def State.defectAlerts (r : TapRecord) (e : Fin 256) (s : State) : Alerts :=
  (s.alerts.follow s.cfg .anyStale s.channels.anyStale (s.handleRecord r e).channels.anyStale).reportAll s.cfg
    ((s.channels.meters[e]).handle (s.cfg.channel e) s.cfg.reprimeThreshold r).defects

theorem State.handleRecord_has (r : TapRecord) (e : Fin 256) (s : State) (b : AlertBit) :
    (s.handleRecord r e).alerts.has b = true ↔ (s.defectAlerts r e).has b = true ∨
      (((s.channels.meters[e]).handle (s.cfg.channel e) s.cfg.reprimeThreshold r).reprimed = true ∧ b = .reprimed) ∨
      (b = .saturation ∧ (s.noticeSaturates r e = true ∨ s.creditSaturates r e = true)) := by
  rw [State.handleRecord_alerts rfl, Alerts.has_latchIf, Alerts.has_latchIf, Alerts.has_latchIf]
  simp only [Bool.or_eq_true, Bool.and_eq_true, decide_eq_true_eq]
  rw [State.defectAlerts]
  tauto

theorem State.handleRecord_counters (r : TapRecord) (e : Fin 256) (s : State) : (s.handleRecord r e).alerts.counters =
    (s.alerts.reportAll s.cfg
      ((s.channels.meters[e]).handle (s.cfg.channel e) s.cfg.reprimeThreshold r).defects).counters := by
  rw [State.handleRecord_alerts rfl]
  simp only [Alerts.latchIf_counters]
  exact Alerts.reportAll_counters_congr _ _ (Alerts.grew_follow _ _ _ _ _).counters

/-- The new table makes the edge that STALE_EDGE follows. -/
theorem State.handleRecord_edgeFollows (r : TapRecord) (e : Fin 256) (s : State) :
    State.EdgeFollows (s.cfg.selectsBoth .anyStale) s (s.handleRecord r e) := by
  constructor
  · rw [State.handleRecord_has, State.defectAlerts, Alerts.has_reportAll_of_unnamed (by decide)
      DefectClass.bit_ne_staleEdge, Alerts.has_follow]
    simp [Condition.bit, and_assoc]
  · intro h
    rw [State.handleRecord_alerts rfl]
    simp only [Alerts.latchIf_realTime, Alerts.reportAll_realTime, Alerts.follow_realTime, Bool.or_eq_true]
    exact .inr (bne_iff_ne.mpr h)

/-! ### RECORD_TAKE -/

theorem State.takeRecord_unheld {s : State} {r : TapRecord} {rest : List TapRecord}
    (hqueue : s.intake.queue = r :: rest)
    (hentry : s.cfg.entryOf r.channel = none) : s.takeRecord =
      { s.removed rest with alerts := (s.removed rest).alerts.report s.cfg .admitDrop } := by
  rw [State.takeRecord, hqueue]
  simp only [State.afterRemoval_form, hentry]

theorem State.takeRecord_held {s : State} {r : TapRecord} {rest : List TapRecord} {e : Fin 256}
    (hqueue : s.intake.queue = r :: rest) (hentry : s.cfg.entryOf r.channel = some e) :
    s.takeRecord = (s.removed rest).handleRecord r e := by
  rw [State.takeRecord, hqueue]
  simp only [State.afterRemoval_form, hentry]

/-- What a record taken leaves to the removal and to the edges, whichever entry it comes to. -/
structure State.Taken (rest : List TapRecord) (s u : State) : Prop where
  frame : { u with channels := s.channels, lines := s.lines, alerts := s.alerts } =
    { s.removed rest with alerts := s.alerts }
  clock : u.lines.clock = s.lines.clock
  bounds : u.lines.bounds = s.lines.bounds
  handOver : u.lines.handOver = s.lines.handOver
  spillEdge : u.alerts.has .spillEdge = (s.removed rest).alerts.has .spillEdge
  edge : State.EdgeFollows (s.cfg.selectsBoth .anyStale) s u

theorem State.takeRecord_taken {s : State} {r : TapRecord} {rest : List TapRecord}
    (hqueue : s.intake.queue = r :: rest) :
    State.Taken rest s s.takeRecord := by
  have hstale : (s.removed rest).alerts.has .staleEdge = s.alerts.has .staleEdge := by
    rw [State.removed_has]
    simp
  cases hentry : s.cfg.entryOf r.channel with
  | none =>
    rw [State.takeRecord_unheld hqueue hentry]
    have hkept {b : AlertBit} (hb : b ≠ .counterFull) (hname : DefectClass.admitDrop.bit ≠ some b) :
        ((s.removed rest).alerts.report s.cfg .admitDrop).has b = (s.removed rest).alerts.has b :=
      Alerts.has_report_of_ne hname hb
    refine ⟨rfl, rfl, rfl, rfl, hkept (by decide) (by decide), ?_, fun h => absurd rfl h⟩
    rw [hkept (by decide) (by decide), hstale]
    simp only [State.removed, iff_self_or]
    rintro (⟨hno, hyes⟩ | ⟨hyes, hno, -⟩) <;> simp [hyes] at hno
  | some e =>
    rw [State.takeRecord_held hqueue hentry]
    obtain ⟨M, L, al, hform, -, -⟩ := (s.removed rest).handleRecord_eq r e
    have hedge := (s.removed rest).handleRecord_edgeFollows r e
    refine ⟨?_, ?_, ?_, ?_, ?_, hedge.congr rfl rfl hstale.symm rfl id⟩
    · rw [hform]
      rfl
    · rw [hform]
      rfl
    · rw [hform]
      rfl
    · rw [hform]
      rfl
    · refine Bool.eq_iff_iff.mpr ((State.handleRecord_has r e _ _).trans ?_)
      rw [State.defectAlerts, Alerts.has_reportAll_of_unnamed (by decide) DefectClass.bit_ne_spillEdge,
        Alerts.has_follow]
      simp [Condition.bit]

/-- Settles O36: the removal, the edges, and for an entry found its handling. -/
theorem recordTakeHandlesTheHeadRecord : Obligations.RecordTakeHandlesTheHeadRecord := by
  unfold Obligations.RecordTakeHandlesTheHeadRecord
  intro s r rest hsteady hpart hpause hinHand hqueue
  have hcan : (s.steady && s.setup.part.working && !s.channels.pause && s.channels.inHand.isNone &&
      !s.intake.queue.isEmpty) = true := by
    simp [hsteady, (Part.working_iff _).mpr hpart, hpause, hinHand, hqueue]
  obtain ⟨hframe, hclock, hbounds, hhandOver, hspillEdge, hedge⟩ := State.takeRecord_taken hqueue
  have hintake : s.takeRecord.intake = (s.removed rest).intake := (congrArg State.intake hframe :)
  have hpass : s.takeRecord.pass = (s.removed rest).pass := (congrArg State.pass hframe :)
  have hedge := hedge.request
  have hhas (b : AlertBit) := State.requestMirror_has s.takeRecord b
  refine ⟨s.takeRecord.requestMirror, stepWhen_can _ s hcan, (congrArg Intake.queue hintake :),
    (congrArg Intake.windows hintake :), (congrArg Intake.accepted hintake :), (congrArg Intake.holdRequest hintake :),
    (congrArg State.writer hframe :), (congrArg State.tally hframe :), (congrArg State.setup hframe :),
    (congrArg State.pending hframe :), (congrArg State.inReset hframe :),
    ⟨fun hno => ?_, fun hdrops hspill => ⟨?_, fun hboth => ?_⟩, fun hdrops hspill => ?_⟩, hedge.edge, hedge.owed, ?_,
    hclock, hbounds, hhandOver, fun hnone => ?_, fun e hsome => ?_⟩
  · have hno : s.drops rest.length = false := Bool.eq_false_iff.mpr (mt (s.drops_iff _).mp hno)
    refine hpass.trans ?_
    simp [State.removed, hno]
  · refine hpass.trans ?_
    simp [State.removed, (s.drops_iff _).mpr hdrops, hspill]
  · rw [hhas, hspillEdge, State.removed_has, (s.drops_iff _).mpr hdrops, hspill, hboth]
    simp
  · refine hpass.trans ?_
    simp [State.removed, (s.drops_iff _).mpr hdrops, hspill]
  · rw [hhas, hspillEdge, State.removed_has]
    simp [State.drops, and_assoc]
  · have htake := State.takeRecord_unheld hqueue hnone
    refine ⟨?_, ?_, ?_, ?_, ?_⟩
    · exact (congrArg State.channels htake :)
    · exact (congrArg State.lines htake :)
    · rw [hhas, htake]
      exact Alerts.has_report_bit rfl
    · rw [hhas, htake]
      refine (Alerts.has_report_of_ne (by decide) (by decide)).trans ?_
      rw [State.removed_has]
      simp
    · rw [requestMirror_counters, htake]
      exact Alerts.report_counters_congr _ _ (s.removed_grew rest).counters
  · intro c h l l1
    have htake := State.takeRecord_held hqueue hsome
    obtain ⟨M, L, al, hform, huncounted, hcounted⟩ := (s.removed rest).handleRecord_eq r e
    have hmeters : s.takeRecord.channels.meters = s.channels.meters.set e M :=
      (congrArg (fun u : State => u.channels.meters) (htake.trans hform) :)
    have hlines : s.takeRecord.lines.lines = s.lines.lines.set c.line L :=
      (congrArg (fun u : State => u.lines.lines) (htake.trans hform) :)
    have hmeter : s.takeRecord.channels.meters[e] = M :=
      (congrArg (fun v : Vector Meter 256 => v[e]) hmeters).trans (set_get_self _ _ _)
    have hline : s.takeRecord.lines.lines[c.line] = L :=
      (congrArg (fun v : Vector Line 16 => v[c.line]) hlines).trans (set_get_self _ _ _)
    have hbits (b : AlertBit) : s.takeRecord.requestMirror.alerts.has b = true ↔
        ((s.removed rest).defectAlerts r e).has b = true ∨ (h.reprimed = true ∧ b = .reprimed) ∨
        (b = .saturation ∧ ((s.removed rest).noticeSaturates r e = true ∨
          (s.removed rest).creditSaturates r e = true)) := by
      rw [hhas, htake]
      exact State.handleRecord_has r e _ b
    have hgrew := (s.removed_grew rest).trans (Alerts.grew_follow s.cfg (s.removed rest).alerts .anyStale
      s.channels.anyStale ((s.removed rest).handleRecord r e).channels.anyStale)
    have hnoticed : (s.removed rest).noticeSaturates r e = true ↔ h.reprimed = true ∧ l.reprimeNotice.2 = true :=
      Bool.and_eq_true_iff
    have hsaturation : ((s.removed rest).defectAlerts r e).has .saturation = s.alerts.has .saturation := by
      rw [State.defectAlerts, Alerts.has_reportAll_of_unnamed (by decide) DefectClass.bit_ne_saturation,
        Alerts.has_follow, State.removed_has]
      simp [Condition.bit]
    refine ⟨fun k hk => ?_, fun k hk => ?_, ?_, fun d hd b hb => ?_, fun hreprimed => ?_, fun b hb => ?_,
      fun b hsat hfull hspill hstale hb => ?_, ?_⟩
    · exact (congrArg (fun v : Vector Meter 256 => v[k]) hmeters).trans (set_get_other _ _ _ _ hk)
    · exact (congrArg (fun v : Vector Line 16 => v[k]) hlines).trans (set_get_other _ _ _ _ hk)
    · rw [requestMirror_counters, htake, State.handleRecord_counters]
      exact Alerts.reportAll_counters_congr _ _ (s.removed_grew rest).counters
    · exact (hbits b).mpr (.inl (Alerts.has_reportAll_bit hb _ hd))
    · exact (hbits _).mpr (.inr (.inl ⟨hreprimed, rfl⟩))
    · exact (hbits b).mpr (.inl (Alerts.has_reportAll_mono _ (hgrew.keeps b hb)))
    · rcases (hbits b).mp hb with hb | ⟨hreprimed, hb⟩ | ⟨hb, -⟩
      · rcases Alerts.has_reportAll_only hfull hb with hb | hdefect
        · rw [Alerts.has_follow, State.removed_has] at hb
          simp only [Condition.bit, hspill, hstale, decide_false, Bool.and_false, Bool.or_false] at hb
          exact .inl hb
        · exact .inr (.inl hdefect)
      · exact .inr (.inr ⟨hb, hreprimed⟩)
      · exact absurd hb hsat
    · intro noticed
      have hsat := (hbits .saturation).trans (or_congr (by rw [hsaturation]) (or_iff_right (by simp)))
      simp only [true_and, hnoticed] at hsat
      refine ⟨fun hcounts => ?_, fun d carried hcounts => ?_⟩
      · obtain ⟨hM, hL⟩ := huncounted hcounts
        have hcredit : (s.removed rest).creditSaturates r e = false := State.creditSaturates_uncounted hcounts
        refine ⟨hmeter.trans hM, hline.trans hL, ?_⟩
        rw [hsat, hcredit]
        simp [noticed]
      · intro q k
        obtain ⟨hM, hL⟩ := hcounted d carried hcounts
        have hcredit : (s.removed rest).creditSaturates r e = true ↔
            q.2.1 ≠ 0 ∧ (l1.credit (s.cfg.kind c.line) k).2 = true := State.creditSaturates_counted_iff hcounts
        refine ⟨hmeter.trans hM, hline.trans hL, ?_⟩
        rw [hsat, hcredit]

end Sys2Proof.Machine
end

section
/-! SUPPORT. The records formed at a hand-over (R93, R98, R137, R183). -/

namespace Sys2Proof.Machine

/-! ### Intensities and clipped fields -/

theorem intensity_value (energy kg : Nat) :
    (intensity energy kg).value = if kg = 0 then 0 else min (100 * energy / kg) 4294967295 := by
  unfold intensity
  split <;> rfl

theorem intensity_absent (energy kg : Nat) : (intensity energy kg).absent = decide (kg = 0) := by
  by_cases h : kg = 0 <;> simp [intensity, h]

theorem intensity_saturated (energy kg : Nat) :
    (intensity energy kg).saturated = decide (kg ≠ 0 ∧ 4294967295 < 100 * energy / kg) := by
  by_cases h : kg = 0
  · simp [intensity, h]
  · rw [intensity, if_neg h]
    exact decide_eq_decide.mpr (and_iff_right h).symm

theorem spanClipped_eq (covered stale : Nat) (x : Sums) : spanClipped covered stale x =
    decide (16777215 < covered ∨ 255 < stale ∨ 65535 < x.stoppedSeconds) := by
  simp only [spanClipped, Bool.decide_or, Bool.or_assoc]

theorem clippedMasses_eq (a b : Nat) :
    (decide (top 32 < a) || decide (top 32 < b)) = decide (4294967295 < a ∨ 4294967295 < b) :=
  (Bool.decide_or _ _).symm

/-! ### The snapshot taken from its line -/

/-- The record of a snapshot that waits. -/
def Line.formed (kind : SnapshotKind) (n : Fin 16) (l : Line) : Option Formed := (l.takeSnapshot kind n).1

theorem Line.takeSnapshot_waits (kind : SnapshotKind) (n : Fin 16) (l : Line) :
    (l.takeSnapshot kind n).2.waits kind = false := by
  cases kind <;> rfl

theorem Line.takeSnapshot_isSome (kind : SnapshotKind) (n : Fin 16) (l : Line) :
    (l.takeSnapshot kind n).1.isSome = l.waits kind := by
  cases kind <;> exact Option.isSome_map

/-- A formed record names its line and has 16 words. -/
theorem Line.formed_shape {kind : SnapshotKind} {n : Fin 16} {l : Line} {f : Formed}
    (h : (l.takeSnapshot kind n).1 = some f) : f.record.line = n ∧ f.record.words.length = 16 := by
  cases kind with
  | bin =>
    obtain ⟨b, -, rfl⟩ := Option.map_eq_some_iff.mp h
    exact ⟨rfl, rfl⟩
  | epoch =>
    obtain ⟨e, -, rfl⟩ := Option.map_eq_some_iff.mp h
    exact ⟨rfl, rfl⟩
  | job =>
    obtain ⟨j, -, rfl⟩ := Option.map_eq_some_iff.mp h
    exact ⟨rfl, rfl⟩

theorem State.handOverHead_of_formed {s : State} {k : SnapshotKind} {n : Fin 16} {rest : List (SnapshotKind × Fin 16)}
    {f : Formed} (hlist : s.lines.handOver = (k, n) :: rest)
    (hformed : ((s.lines.lines[n]).takeSnapshot k n).1 = some f) : s.handOverHead = { s with
      lines := { s.lines with
        handOver := rest, lines := s.lines.lines.set n ((s.lines.lines[n]).takeSnapshot k n).2 },
      writer := { s.writer with queue := s.writer.queue ++ [f.record] },
      alerts := s.alerts.latchIf f.saturated .saturation } := by
  rw [State.handOverHead, hlist]
  simp only [hformed]

/-- The bit that a hand-over latches. -/
theorem State.handedOver_has (s : State) (f : Formed) (l : LineUnit) (x : Writer) (b : AlertBit) :
    (State.requestMirror { s with
      lines := l, writer := x, alerts := s.alerts.latchIf f.saturated .saturation }).alerts.has b =
    (s.alerts.has b || (f.saturated && decide (b = .saturation))) :=
  (State.requestMirror_has _ b).trans (Alerts.has_latchIf _ _ _ b)

theorem BinSnapshot.record_words (n : Fin 16) (b : BinSnapshot) : (b.record n).record.words =
    [recordWord0 .bin n b.jobCode b.merged] ++
    spanWords b.start b.covered b.stale b.sums (intensity (b.sums.total b.kind) b.sums.pulledKg)
      (intensity (b.sums.total b.kind) b.sums.packedKg) ++
    [recordWord15 (b.flags.saturated || (b.record n).saturated) b.flags.stopped b.flags.changeover
      (intensity (b.sums.total b.kind) b.sums.pulledKg).absent (intensity (b.sums.total b.kind) b.sums.packedKg).absent
      (spanClipped b.covered b.stale b.sums) b.sums.reprimes] := rfl

theorem EpochSnapshot.record_words (n : Fin 16) (e : EpochSnapshot) : (e.record n).record.words =
    [recordWord0 .epoch n (min e.epoch.bins 1023) e.merged] ++
    spanWords e.epoch.start e.epoch.covered e.epoch.stale e.epoch.sums
      (intensity (e.epoch.sums.total e.kind) e.epoch.sums.pulledKg)
      (intensity (e.epoch.sums.total e.kind) e.epoch.sums.packedKg) ++
    [recordWord15 (e.epoch.flags.saturated || (e.record n).saturated) e.epoch.flags.stopped e.epoch.flags.changeover
      (intensity (e.epoch.sums.total e.kind) e.epoch.sums.pulledKg).absent
      (intensity (e.epoch.sums.total e.kind) e.epoch.sums.packedKg).absent
      (spanClipped e.epoch.covered e.epoch.stale e.epoch.sums || decide (1023 < e.epoch.bins))
      e.epoch.sums.reprimes] := rfl

theorem JobSnapshot.record_words (n : Fin 16) (j : JobSnapshot) : (j.record n).record.words =
    [recordWord0 .job n j.code j.merged, word j.start, word j.finish] ++ splitWords j.energy ++
    splitWords j.share ++
    [word j.changeover, word j.changeoverSeconds, word (min j.pulledKg (top 32)), word (min j.packedKg (top 32)),
     word (intensity j.energy j.pulledKg).value, word (intensity j.energy j.packedKg).value, 0, 0,
     recordWord15 (j.saturated || (j.record n).saturated) false false (intensity j.energy j.pulledKg).absent
       (intensity j.energy j.packedKg).absent (decide (top 32 < j.pulledKg) || decide (top 32 < j.packedKg)) 0] := rfl

/-- Settles O38: the snapshot at the head formed and queued, word by word for each kind. -/
theorem handOversFillTheWriterQueue : Obligations.HandOversFillTheWriterQueue := by
  unfold Obligations.HandOversFillTheWriterQueue
  intro w top32 intensity past total passes first last span long
  refine ⟨fun s k n rest hreset hlist hroom hwaits => ?_, fun s x rest hsteady hmisses hroom => ?_, fun x => rfl⟩
  · obtain ⟨f, hformed⟩ := Option.isSome_iff_exists.mp
      (((s.lines.lines[n]).takeSnapshot_isSome k n).trans hwaits)
    have hcan : (!s.inReset && !s.lines.handOver.isEmpty && decide (s.writer.queue.length < 16)) = true := by
      simp [hreset, hlist, hroom]
    have hexec := stepWhen_can State.handOverHead s hcan
    have hhead := State.handOverHead_of_formed hlist hformed
    rw [hhead] at hexec
    obtain ⟨hline, hlength⟩ := Line.formed_shape hformed
    have hhas := s.handedOver_has f { s.lines with
      handOver := rest, lines := s.lines.lines.set n ((s.lines.lines[n]).takeSnapshot k n).2 }
      { s.writer with queue := s.writer.queue ++ [f.record] }
    have hsaturation {p : Bool} (hp : f.saturated = p) := (Bool.eq_iff_iff.mp (hhas .saturation)).trans
      (by rw [hp]; simp : _ ↔ s.alerts.has .saturation = true ∨ p = true)
    refine ⟨_, f.record, hexec, rfl, hline, hlength, rfl, ?_, fun b hk hb => ?_, fun e hk he => ?_,
      fun j hk hj => ?_, rfl, rfl, rfl, rfl, rfl, rfl, rfl, ?_, fun b hb => ?_⟩
    · refine (congrArg (·.waits k) (set_get_self s.lines.lines n _)).trans ?_
      exact Line.takeSnapshot_waits k n _
    · subst hk
      obtain rfl : b.record n = f :=
        Option.some.inj ((congrArg (Option.map (BinSnapshot.record n)) hb).symm.trans hformed)
      have hpasses : (b.record n).saturated = passes b.kind b.sums :=
        congrArg₂ (· || ·) (intensity_saturated _ _) (intensity_saturated _ _)
      refine ⟨rfl, ?_, hsaturation hpasses⟩
      rw [BinSnapshot.record_words, hpasses, intensity_absent, intensity_absent, spanClipped_eq]
      simp only [spanWords, intensity_value]
      rfl
    · subst hk
      obtain rfl : e.record n = f :=
        Option.some.inj ((congrArg (Option.map (EpochSnapshot.record n)) he).symm.trans hformed)
      have hpasses : (e.record n).saturated = passes e.kind e.epoch.sums :=
        congrArg₂ (· || ·) (intensity_saturated _ _) (intensity_saturated _ _)
      refine ⟨rfl, ?_, hsaturation hpasses⟩
      rw [EpochSnapshot.record_words, hpasses, intensity_absent, intensity_absent, spanClipped_eq]
      simp only [spanWords, intensity_value]
      rfl
    · subst hk
      obtain rfl : j.record n = f :=
        Option.some.inj ((congrArg (Option.map (JobSnapshot.record n)) hj).symm.trans hformed)
      intro full
      have hfull : (j.record n).saturated = full :=
        congrArg₂ (· || ·) (intensity_saturated _ _) (intensity_saturated _ _)
      refine ⟨rfl, ?_, hsaturation hfull⟩
      rw [JobSnapshot.record_words, hfull, intensity_absent, intensity_absent, clippedMasses_eq]
      simp only [splitWords, intensity_value]
      rfl
    · rw [requestMirror_counters]
      exact Alerts.latchIf_counters _ _ _
    · rw [hhas, decide_eq_false hb, Bool.and_false, Bool.or_false]
  · have hcan : (s.steady && !s.tally.misses.isEmpty && decide (s.writer.queue.length < 16)) = true := by
      simp [hsteady, hmisses, hroom]
    have hhand : s.handOverMiss = { s with
        tally := { s.tally with misses := rest },
        writer := { s.writer with queue := s.writer.queue ++ [x.record] } } := by
      rw [State.handOverMiss, hmisses]
    exact stepWhen_of_eq hcan hhand

end Sys2Proof.Machine
end

section
/-! SUPPORT. The Result Writer: a record taken into hand, and the answers to its writes (R110 to R114, R119). -/

namespace Sys2Proof.Machine

/-! ### When a record is taken into hand -/

theorem Image.ringInForce_iff (m : Image) (n : Fin 16) : m.ringInForce n = true ↔ m.kind n ≠ .none := by
  simp [Image.ringInForce]

theorem Writer.initOwed_eq_false_iff (w : Writer) : w.initOwed = false ↔ ∀ n : Fin 16, (w.rings[n]).initOwed = false :=
  toList_any_eq_false_iff _ _

theorem Port.isInitialisingWrite_eq_false {p : Port} (h : ∀ n txn, p ≠ .internal (.initialisingWrite n) txn) :
    p.isInitialisingWrite = false := by
  unfold Port.isInitialisingWrite
  split
  · next n txn => exact absurd rfl (h n txn)
  · rfl

theorem State.takeHead_ringless {s : State} {r : ResultRecord} {rest : List ResultRecord}
    (hqueue : s.writer.queue = r :: rest) (hstep : s.writer.step = none) (hkind : s.cfg.kind r.line = .none) :
    s.takeHead = { s with
      writer := { s.writer with queue := rest }, alerts := s.alerts.latch .ringOverrun } := by
  have hforce : s.cfg.ringInForce r.line = false := by simp [Image.ringInForce, hkind]
  simp only [State.takeHead, hqueue, hforce, Bool.not_false, if_true, Writer.finish, List.tail_cons, ← hstep]

theorem State.takeHead_full {s : State} {r : ResultRecord} {rest : List ResultRecord}
    (hqueue : s.writer.queue = r :: rest) (hstep : s.writer.step = none) (hkind : s.cfg.kind r.line ≠ .none)
    (hfull : (s.writer.rings[r.line]).occupancy = s.cfg.ringSize r.line) : s.takeHead = { s with
      writer := { s.writer with
        queue := rest, rings := s.writer.rings.set r.line (s.writer.rings[r.line]).lose },
      alerts := s.alerts.latch .ringOverrun } := by
  have hforce : s.cfg.ringInForce r.line = true := (s.cfg.ringInForce_iff _).mpr hkind
  simp only [State.takeHead, hqueue, hforce, hfull, Bool.not_true, Bool.false_eq_true, if_false, if_true,
    Writer.finish, Writer.setRing, List.tail_cons, ← hstep]

theorem State.takeHead_reserving {s : State} {r : ResultRecord} {rest : List ResultRecord}
    (hqueue : s.writer.queue = r :: rest) (hkind : s.cfg.kind r.line ≠ .none)
    (hroom : (s.writer.rings[r.line]).occupancy ≠ s.cfg.ringSize r.line) : s.takeHead = { s with
      writer := { s.writer with
        queue := { r with words := completeRecord (s.writer.rings[r.line]).pendingLost r.words } :: rest,
        step := some .recordWrite,
        rings := s.writer.rings.set r.line { s.writer.rings[r.line] with reserved := true } } } := by
  have hforce : s.cfg.ringInForce r.line = true := (s.cfg.ringInForce_iff _).mpr hkind
  simp only [State.takeHead, hqueue, hforce, hroom, Bool.not_true, Bool.false_eq_true, if_false, Writer.setRing]

/-- Settles O39: no ring, a full ring, a ring with room. -/
theorem takeIntoHandChecksRingAndSpace : Obligations.TakeIntoHandChecksRingAndSpace := by
  unfold Obligations.TakeIntoHandChecksRingAndSpace
  intro s r rest hsteady hstep hqueue hinit hport ring
  have hcan : (s.steady && s.writer.step.isNone && !s.writer.queue.isEmpty && !s.writer.initOwed &&
      !s.pass.port.isInitialisingWrite) = true := by
    rw [(Writer.initOwed_eq_false_iff _).mpr hinit, Port.isInitialisingWrite_eq_false hport, hstep, hqueue, hsteady]
    rfl
  exact ⟨fun hkind => stepWhen_of_eq hcan (State.takeHead_ringless hqueue hstep hkind),
    fun hkind hfull => stepWhen_of_eq hcan (State.takeHead_full hqueue hstep hkind hfull),
    fun hkind hroom => stepWhen_of_eq hcan (State.takeHead_reserving hqueue hkind hroom)⟩

/-! ### The answers to the writes -/

/-- The record at the queue's head discarded, its ring's counts risen and its reservation given up. -/
theorem State.discardRecord_head {s : State} {r : ResultRecord} {rest : List ResultRecord}
    (hqueue : s.writer.queue = r :: rest) : s.discardRecord = { s with
      writer := {
        queue := rest, step := none,
        rings := s.writer.rings.set r.line (s.writer.rings[r.line]).unreserve },
      alerts := s.alerts.latch .memoryFault } := by
  simp only [State.discardRecord, hqueue, Writer.setRing, Writer.finish, List.tail_cons]

theorem State.publishRecord_head {s : State} {r : ResultRecord} {rest : List ResultRecord}
    (hqueue : s.writer.queue = r :: rest) : s.publishRecord = { s with
      writer := {
        queue := rest, step := none,
        rings := s.writer.rings.set r.line { s.writer.rings[r.line] with
          producer := (s.writer.rings[r.line]).producer + 1, reserved := false, pendingLost := 0 } } } := by
  simp only [State.publishRecord, hqueue, Writer.setRing, Writer.finish, List.tail_cons]

theorem State.answerRecordWrite_again {s : State} (h : s.writer.step ≠ some .recordRetry) :
    s.answerRecordWrite .error = s.freePort.writerStep .recordRetry := if_neg h

theorem State.answerRecordWrite_last {s : State} (h : s.writer.step = some .recordRetry) :
    s.answerRecordWrite .error = s.freePort.discardRecord := if_pos h

theorem State.answerIndexWrite_again {s : State} (h : s.writer.step ≠ some .indexRetry) :
    s.answerIndexWrite .error = s.freePort.writerStep .indexRetry := if_neg h

theorem State.answerIndexWrite_last {s : State} (h : s.writer.step = some .indexRetry) :
    s.answerIndexWrite .error = s.freePort.discardRecord := if_pos h

/-- What a discard after a second ERROR leaves. -/
theorem State.freePort_discardRecord {s : State} {r : ResultRecord} {rest : List ResultRecord}
    (hqueue : s.writer.queue = r :: rest) : s.freePort.discardRecord = { s with
      pass := { s.pass with port := .free },
      writer := {
        queue := rest, step := none, rings := s.writer.rings.set r.line { s.writer.rings[r.line] with
          overrun := min ((s.writer.rings[r.line]).overrun + 1) 65535,
          pendingLost := min ((s.writer.rings[r.line]).pendingLost + 1) 255, reserved := false,
          shadow := if (s.writer.rings[r.line]).shadow = (s.writer.rings[r.line]).producer + 1
            then (s.writer.rings[r.line]).producer else (s.writer.rings[r.line]).shadow } },
      alerts := s.alerts.latch .memoryFault } := by
  rw [State.discardRecord_head (s := s.freePort) hqueue, Ring.unreserve_eq]
  rfl

/-- Settles O40: each write's three answers. -/
theorem ringWritesPublishOrDiscard : Obligations.RingWritesPublishOrDiscard := by
  unfold Obligations.RingWritesPublishOrDiscard
  refine ⟨?record, ?index, fun s n txn hsteady hport => ?initialising⟩
  case record =>
    intro s txn r rest hsteady hport hqueue ring
    have hcan : (s.steady && s.pass.port.isRecordWrite) = true := by rw [hsteady, hport]; rfl
    exact ⟨stepWhen_of_eq hcan rfl,
      fun hagain => stepWhen_of_eq hcan (State.answerRecordWrite_again hagain),
      fun hlast => stepWhen_of_eq hcan ((State.answerRecordWrite_last hlast).trans (s.freePort_discardRecord hqueue))⟩
  case index =>
    intro s txn r rest hsteady hport hqueue ring
    have hcan : (s.steady && s.pass.port.isIndexWrite) = true := by rw [hsteady, hport]; rfl
    have hpublished : s.answerIndexWrite .ok = { s with
        pass := { s.pass with port := .free },
        writer := { queue := rest, step := none, rings := s.writer.rings.set r.line { ring with
          producer := ring.producer + 1, reserved := false, pendingLost := 0 } } } :=
      State.publishRecord_head (s := s.freePort) hqueue
    exact ⟨stepWhen_of_eq hcan hpublished,
      fun hagain => stepWhen_of_eq hcan (State.answerIndexWrite_again hagain),
      fun hlast => stepWhen_of_eq hcan ((State.answerIndexWrite_last hlast).trans (s.freePort_discardRecord hqueue))⟩
  case initialising =>
    have hcan : (s.steady && s.pass.port.isInitialisingWrite) = true := by rw [hsteady, hport]; rfl
    exact ⟨stepWhen_of_eq hcan rfl, stepWhen_of_eq hcan rfl⟩

end Sys2Proof.Machine
end

section
/-! SUPPORT. The Tally Engine: an update posted, missed or turned away, the end of its service, and the answers to its
reads and writes (R125 to R138). -/

namespace Sys2Proof.Machine

/-! ### Posting held (R127) -/

theorem State.baseChanges_iff (s : State) : s.baseChanges = true ↔ ∃ new old, s.setup.candidate = some new ∧
    s.setup.active = some old ∧ new.tallyBase ≠ old.tallyBase := by
  unfold State.baseChanges
  cases hnew : s.setup.candidate with
  | none => simp
  | some new => cases hold : s.setup.active <;> simp

theorem State.postingHeld_iff (s : State) : s.postingHeld = true ↔
    s.setup.part = .applying .drain ∧ ∃ new old, s.setup.candidate = some new ∧ s.setup.active = some old ∧
      new.tallyBase ≠ old.tallyBase := by
  rw [State.postingHeld, Bool.and_eq_true, beq_iff_eq, s.baseChanges_iff]

/-! ### The end of a service (R131, R132, R134) -/

theorem Tally.finish_head {t : Tally} {u : Update} {rest : List Update} (h : t.queue = u :: rest) : t.finish = { t with
    queue := rest, state := .idle, losses := 0, lockedLoss := false, computed := none, reservation := none,
    backoff := none } := by
  rw [Tally.finish, h, List.tail_cons]

theorem Ledger.sendToMissList_head {x : Ledger} {u : Update} {rest : List Update} (h : x.tally.queue = u :: rest)
    (reason : MissReason) (locked : Bool) : x.sendToMissList reason locked =
      Ledger.miss reason locked u { x with tally := x.tally.finish } := by
  rw [Ledger.sendToMissList, h]

/-- A fault of the service sends the update in hand to the miss list. -/
theorem Ledger.fail_head {x : Ledger} {u : Update} {rest : List Update} (h : x.tally.queue = u :: rest)
    (reason : MissReason) : x.fail reason = Ledger.miss reason false u {
      tally := { x.tally with
        queue := rest, state := .idle, losses := 0, lockedLoss := false, computed := none, reservation := none,
        backoff := none },
      alerts := x.alerts.latch .memoryFault } := by
  rw [← Tally.finish_head h]
  exact Ledger.sendToMissList_head (x := { x with alerts := x.alerts.latch .memoryFault }) h reason false

/-- Settles O42: one clause after the other, the ERROR by the fault of the service. -/
theorem tallyCycleTakesReadsAndWrites : Obligations.TallyCycleTakesReadsAndWrites := by
  unfold Obligations.TallyCycleTakesReadsAndWrites
  refine ⟨State.postingHeld_iff, fun s u rest hsteady hidle hqueue hheld => ?_, fun s hsteady hstate hbackoff => ?_, ?_⟩
  · have hcan : (s.steady && s.tally.state == .idle && !s.tally.queue.isEmpty && !s.postingHeld) = true := by
      rw [hsteady, hidle, hqueue, hheld]
      rfl
    exact stepWhen_eq (fun s : State => { s with
      tally := { s.tally with losses := 0, lockedLoss := false, state := .readWait } }) s hcan
  · have hcan : (s.steady && s.tally.state == .backoff && s.tally.backoff == some 0) = true := by
      rw [hsteady, hstate, hbackoff]
      rfl
    exact stepWhen_eq (fun s : State => { s with
      tally := { s.tally with state := .readWait, backoff := none } }) s hcan
  · intro s txn u rest hsteady hport hqueue served
    have hcan : (s.steady && s.pass.port.isConditionalWrite) = true := by rw [hsteady, hport]; rfl
    have hok : s.takeConditionalWrite .ok =
        { s with pass := { s.pass with port := .free }, tally := served } :=
      congrArg (fun t => { s.freePort with tally := t }) (Tally.finish_head hqueue)
    have herror : s.takeConditionalWrite .error =
        (let x : Ledger := Ledger.miss .writeFault false u { tally := served, alerts := s.alerts.latch .memoryFault }
         { s with pass := { s.pass with port := .free }, tally := x.tally, alerts := x.alerts }) :=
      congrArg s.freePort.withLedger (Ledger.fail_head (x := s.freePort.ledger) hqueue .writeFault)
    exact ⟨stepWhen_of_eq hcan hok, stepWhen_of_eq hcan herror⟩

/-! ### Posting, missing and turning away (R126, R136, R138) -/

theorem any_entry_iff (misses : List Miss) (entry : Nat) :
    misses.any (fun m => m.entry == entry) = true ↔ ∃ e ∈ misses, e.entry = entry := by simp

theorem Ledger.miss_merging {x : Ledger} {u : Update} (h : ∃ e ∈ x.tally.misses, e.entry = u.entry)
    (reason : MissReason) (locked : Bool) : x.miss reason locked u = {
      tally := { x.tally with
        misses := x.tally.misses.map (fun e => if e.entry = u.entry then e.merge reason locked u else e) },
      alerts := x.alerts.latch .tallyMiss } :=
  if_pos ((any_entry_iff _ _).mpr h)

theorem Ledger.miss_unmerged {x : Ledger} {u : Update} (h : ∀ e ∈ x.tally.misses, e.entry ≠ u.entry)
    (reason : MissReason) (locked : Bool) : x.miss reason locked u =
      if x.tally.misses.length < 16 then {
        tally := { x.tally with misses := x.tally.misses ++ [Miss.make reason locked u] },
        alerts := x.alerts.latch .tallyMiss }
      else x.turnAway .listFull u :=
  if_neg fun hany => by
    obtain ⟨e, hmem, hentry⟩ := (any_entry_iff _ _).mp hany
    exact h e hmem hentry

/-- An update sent to the miss list merges, joins or is turned away. -/
theorem Ledger.miss_cases (x : Ledger) (reason : MissReason) (locked : Bool) (u : Update) :
    (∃ misses, x.miss reason locked u = {
      tally := { x.tally with misses := misses }, alerts := x.alerts.latch .tallyMiss }) ∨
    x.miss reason locked u = x.turnAway .listFull u := by
  by_cases hmerge : ∃ e ∈ x.tally.misses, e.entry = u.entry
  · exact .inl ⟨_, Ledger.miss_merging hmerge _ _⟩
  · rw [Ledger.miss_unmerged (by simpa using hmerge)]
    split
    · exact .inl ⟨_, rfl⟩
    · exact .inr rfl

/-- The alerts owe the lost-tally group where a total changes, and latch TALLY_MISS. -/
theorem Ledger.miss_alerts (x : Ledger) (reason : MissReason) (locked : Bool) (u : Update) :
    (x.miss reason locked u).alerts = Alerts.latch .tallyMiss { x.alerts with owed := { x.alerts.owed with
      lostTally := x.alerts.owed.lostTally || decide ((x.miss reason locked u).tally.lost ≠ x.tally.lost) } } := by
  rcases x.miss_cases reason locked u with ⟨misses, h⟩ | h
  · rw [h]
    simp
  · rw [h]
    rfl

theorem Ledger.miss_queue (x : Ledger) (reason : MissReason) (locked : Bool) (u : Update) :
    (x.miss reason locked u).tally.queue = x.tally.queue :=
  (congrArg Tally.queue (Ledger.miss_tally_frame reason locked u x) :)

/-- The fields of a new entry. A sum from 0 is the update's own amount. -/
theorem Miss.make_eq (reason : MissReason) (locked : Bool) (u : Update) : Miss.make reason locked u = {
    entry := u.entry, line := u.line, contention := decide (reason = .contention),
    readFault := decide (reason = .readFault), writeFault := decide (reason = .writeFault),
    locked := locked, count := 1, energy := min u.energy (2 ^ 64 - 1), pulled := min u.pulled (2 ^ 32 - 1),
    packed := min u.packed (2 ^ 32 - 1), changeover := min u.changeover (2 ^ 32 - 1),
    counted := min u.count (2 ^ 32 - 1),
    saturated := decide (2 ^ 64 - 1 < u.energy) || decide (2 ^ 32 - 1 < u.pulled) ||
      decide (2 ^ 32 - 1 < u.packed) || decide (2 ^ 32 - 1 < u.changeover) || decide (2 ^ 32 - 1 < u.count),
    time := u.time } := by
  simp only [Miss.make, satAdd, satOver, Nat.zero_add, top]
  cases reason <;> rfl

/-- Settles O43: the update's four ways, and the entry's fields. -/
theorem updatesArePostedMissedOrTurnedAway : Obligations.UpdatesArePostedMissedOrTurnedAway := by
  unfold Obligations.UpdatesArePostedMissedOrTurnedAway
  refine ⟨fun x u => ⟨Ledger.post_joins x u, ?full⟩, fun us x => rfl, ?miss, ?entry⟩
  case full =>
    intro hfull lost
    rw [Ledger.post_full x u hfull]
    exact ⟨rfl, Alerts.has_latch_self _ _⟩
  case miss =>
    intro x u reason locked y
    refine ⟨Ledger.has_miss reason locked u x, x.miss_queue reason locked u, Ledger.miss_tally_frame reason locked u x,
      x.miss_alerts reason locked u,
      fun hmerge => ?_, fun hother hroom => ?_, fun hother hfull => ?_⟩
    · rw [show y = _ from Ledger.miss_merging hmerge reason locked]
      exact ⟨rfl, rfl⟩
    · rw [show y = _ from (Ledger.miss_unmerged hother reason locked).trans (if_pos hroom)]
      exact ⟨rfl, rfl⟩
    · rw [show y = _ from (Ledger.miss_unmerged hother reason locked).trans (if_neg hfull)]
      exact ⟨rfl, rfl⟩
  case entry =>
    intro u reason locked e top32 top64
    exact ⟨Miss.make_eq reason locked u, by cases reason <;> rfl⟩

end Sys2Proof.Machine
end

section
/-! SUPPORT. The lost count and the check word of a completed record (R112). -/

namespace Sys2Proof.Machine

/-! ### The low bits of a word replaced -/

/-- A mask of high bits drops the low `k` bits. -/
theorem and_highMask (w : Word) (k : Nat) : w &&& (BitVec.allOnes 32 <<< k) = (w >>> k) <<< k := by
  refine BitVec.eq_of_getLsbD_eq fun i hi => ?_
  have hlow : i - k < 32 := by omega
  rw [BitVec.getLsbD_and, BitVec.getLsbD_shiftLeft, BitVec.getLsbD_shiftLeft, BitVec.getLsbD_ushiftRight,
    BitVec.getLsbD_allOnes, decide_eq_true hi, decide_eq_true hlow]
  by_cases h : i < k
  · simp [h]
  · have hsum : k + (i - k) = i := by omega
    simp [h, hsum]

theorem toNat_high_or_low (w : Word) {k low : Nat} (hk : k ≤ 32) (hlow : low < 2 ^ k) :
    ((w &&& (BitVec.allOnes 32 <<< k)) ||| word low).toNat = w.toNat / 2 ^ k * 2 ^ k + low := by
  have hbound : w.toNat / 2 ^ k * 2 ^ k ≤ w.toNat := Nat.div_mul_le_self _ _
  have hpow : 2 ^ k ≤ 2 ^ 32 := Nat.pow_le_pow_right (by omega) hk
  have hw := w.isLt
  have hlow32 : (word low).toNat = low :=
    (BitVec.toNat_ofNat _ _).trans (Nat.mod_eq_of_lt (Nat.lt_of_lt_of_le hlow hpow))
  have hhigh : ((w >>> k) <<< k).toNat = w.toNat / 2 ^ k * 2 ^ k := by
    rw [BitVec.toNat_shiftLeft, BitVec.toNat_ushiftRight, Nat.shiftLeft_eq, Nat.shiftRight_eq_div_pow,
      Nat.mod_eq_of_lt (Nat.lt_of_le_of_lt hbound hw)]
  rw [and_highMask, BitVec.toNat_or, hhigh, hlow32, ← Nat.shiftLeft_eq, ← Nat.shiftLeft_add_eq_or_of_lt hlow]

/-! ### The check word -/

theorem onesSum_le (ws : List Word) : onesSum ws ≤ 65535 := by
  rw [onesSum_eq]
  exact List.foldlRecOn (motive := fun sum => sum ≤ 65535) ws addWord (Nat.zero_le _)
    (fun _ hsum w _ => addWord_le w hsum)

theorem onesSum_append_word (ws : List Word) (w : Word) :
    onesSum (ws ++ [w]) = onesAdd (onesAdd (onesSum ws) (w.toNat / 65536)) (w.toNat % 65536) := by
  rw [onesSum_eq, onesSum_eq, List.foldl_append, List.foldl_cons, List.foldl_nil, addWord, halves_eq]
  rfl

theorem onesAdd_zero {a : Nat} (h : a ≤ 65535) : onesAdd a 0 = a := by
  rw [onesAdd_eq h (Nat.zero_le _), if_pos (by omega)]
  rfl

/-- The complement of a sum completes it to FFFFh. -/
theorem onesAdd_complement {a : Nat} (h : a ≤ 65535) : onesAdd a (65535 - a) = 65535 := by
  rw [onesAdd_eq h (by omega), if_pos (by omega)]
  omega

/-- The last word with its low half given as `low`. -/
def withCheck (w : Word) (low : Nat) : Word := (w &&& 0xFFFF0000#32) ||| word low

theorem withCheck_toNat (w : Word) {low : Nat} (h : low ≤ 65535) :
    (withCheck w low).toNat = w.toNat / 65536 * 65536 + low :=
  toNat_high_or_low w (k := 16) (by omega) (by omega)

theorem withCheck_zero (w : Word) : w &&& 0xFFFF0000#32 = withCheck w 0 := (BitVec.or_zero).symm

/-- The check word taken from the sum with a zero check word makes the sum FFFFh. -/
theorem onesSum_withCheck (ws : List Word) (w : Word) :
    onesSum (ws ++ [withCheck w (65535 - onesSum (ws ++ [withCheck w 0]))]) = 65535 := by
  have hw := w.isLt
  have hhigh : onesAdd (onesSum ws) (w.toNat / 65536) ≤ 65535 := onesAdd_le (onesSum_le ws) (by omega)
  have hbare : onesSum (ws ++ [withCheck w 0]) = onesAdd (onesSum ws) (w.toNat / 65536) := by
    have hdiv : (w.toNat / 65536 * 65536 + 0) / 65536 = w.toNat / 65536 := by omega
    have hmod : (w.toNat / 65536 * 65536 + 0) % 65536 = 0 := by omega
    rw [onesSum_append_word, withCheck_toNat w (by omega), hdiv, hmod, onesAdd_zero hhigh]
  rw [hbare, onesSum_append_word, withCheck_toNat w (Nat.sub_le _ _)]
  generalize hsum : onesAdd (onesSum ws) (w.toNat / 65536) = sum at hhigh
  have hdiv : (w.toNat / 65536 * 65536 + (65535 - sum)) / 65536 = w.toNat / 65536 := by omega
  have hmod : (w.toNat / 65536 * 65536 + (65535 - sum)) % 65536 = 65535 - sum := by omega
  rw [hdiv, hmod, hsum, onesAdd_complement hhigh]

/-! ### The completed record -/

/-- The first word with its lost-before count. -/
def withLost (w : Word) (lost : Nat) : Word := (w &&& 0xFFFFFF00#32) ||| word lost

theorem withLost_toNat (w : Word) {lost : Nat} (h : lost ≤ 255) :
    (withLost w lost).toNat = w.toNat / 256 * 256 + lost :=
  toNat_high_or_low w (k := 8) (by omega) (by omega)

/-- A list of sixteen words by its first, its last and those between. -/
theorem exists_ends_of_length_sixteen {ws : List Word} (h : ws.length = 16) :
    ∃ first mid last, ws = first :: (mid ++ [last]) ∧ mid.length = 14 := by
  obtain _ | ⟨first, rest⟩ := ws
  · simp at h
  · have hne : rest ≠ [] := by
      rintro rfl
      simp at h
    refine ⟨first, rest.dropLast, rest.getLast hne, ?_, ?_⟩
    · rw [List.dropLast_concat_getLast hne]
    · rw [List.length_dropLast]
      simp only [List.length_cons] at h
      omega

/-- A completed record: the first and the last word changed, the check taken from the sum. -/
theorem completeRecord_eq (lost : Nat) (first last : Word) {mid : List Word} (h : mid.length = 14) :
    completeRecord lost (first :: (mid ++ [last])) =
      (withLost first lost :: mid) ++
        [withCheck last (65535 - onesSum ((withLost first lost :: mid) ++ [withCheck last 0]))] := by
  have hset (w w' : Word) : (mid ++ [w]).set 14 w' = mid ++ [w'] := by
    rw [← h, List.set_append_right _ _ (Nat.le_refl _), Nat.sub_self]
    rfl
  have hget (w : Word) : (mid ++ [w]).getD 14 0 = w := by
    rw [← h, List.getD_append_right _ _ _ _ (Nat.le_refl _), Nat.sub_self]
    rfl
  simp only [completeRecord, List.set_cons_zero, List.set_cons_succ, List.getD_cons_zero, List.getD_cons_succ, hset,
    hget]
  rw [withCheck_zero last]
  simp only [withCheck, withLost, word, BitVec.or_zero, List.cons_append]

/-- Settles O41: the record by its first and its last word. -/
theorem completedRecordPassesItsCheck : Obligations.CompletedRecordPassesItsCheck := by
  unfold Obligations.CompletedRecordPassesItsCheck
  intro lost ws hlength hlost full
  obtain ⟨first, mid, last, rfl, hmid⟩ := exists_ends_of_length_sixteen hlength
  have hfull : full = _ := completeRecord_eq lost first last hmid
  have hfirst := withLost_toNat first hlost
  have hlast := withCheck_toNat last
    (Nat.sub_le 65535 (onesSum ((withLost first lost :: mid) ++ [withCheck last 0])))
  have hfifteen (w : Word) : ((withLost first lost :: mid) ++ [w])[15]? = some w := by
    rw [List.getElem?_append_right (by simp [hmid])]
    simp [hmid]
  have hgetLast : (first :: (mid ++ [last])).getD 15 0 = last := by
    rw [List.getD_cons_succ, List.getD_append_right _ _ _ _ (by omega), hmid]
    rfl
  rw [hfull]
  refine ⟨by simp [hmid], onesSum_withCheck _ last, ⟨_, rfl, ?_, ?_⟩, ⟨_, hfifteen _, ?_⟩, fun k hpos hk => ?_⟩
  · rw [hfirst]
    omega
  · rw [hfirst, List.getD_cons_zero]
    omega
  · rw [hlast, hgetLast]
    omega
  · obtain ⟨j, rfl⟩ : ∃ j, k = j + 1 := ⟨k - 1, by omega⟩
    rw [List.cons_append, List.getElem?_cons_succ, List.getElem?_cons_succ, List.getElem?_append_left (by omega),
      List.getElem?_append_left (by omega)]

end Sys2Proof.Machine
end

section
/-! SUPPORT. The answer to a reserve-read: the computed entry, the loss and the fault (R125, R129, R132, R134). -/

namespace Sys2Proof.Machine

/-! ### The words of a computed entry (R125, R184) -/

/-- The bits of a word to which the flagged bits of a list of numbers are added. -/
theorem foldl_flags_getLsbD (p : Nat → Bool) (ks : List Nat) (b : Nat) (hb : b < 32) (acc : Word) :
    (ks.foldl (fun (acc : Word) k => if p k then acc ||| BitVec.twoPow 32 (16 + k) else acc) acc).getLsbD b =
      (acc.getLsbD b || ks.any (fun k => p k && decide (16 + k = b))) := by
  induction ks generalizing acc with
  | nil => simp
  | cons k ks ih =>
    rw [List.foldl_cons, ih, List.any_cons]
    cases hp : p k with
    | false => simp
    | true =>
      have hflag : (BitVec.twoPow 32 (16 + k)).getLsbD b = decide (16 + k = b) := by
        simp [hb, eq_comm]
      simp only [if_true, BitVec.getLsbD_or, hflag, Bool.true_and, Bool.or_assoc]

theorem entryMask_getLsbD : ∀ b : Fin 32, (0xFEFF0000#32).getLsbD b = decide (16 ≤ b.val ∧ b.val ≠ 24) := by decide

/-- The bits of word 0: kept, sticky, or of the update count. -/
theorem entryWord0_getLsbD (w : Word) (full : List Bool) {b : Nat} (hb : b < 32) : (entryWord0 w full).getLsbD b =
    ((w.getLsbD b && decide (16 ≤ b ∧ b ≠ 24)) ||
      (List.range 5).any (fun k => full.getD k false && decide (16 + k = b)) ||
      (min (w.toNat % 65536 + 1) 65535).testBit b) := by
  have hcount : satAdd (top 16) (bits w 15 0) 1 = min (w.toNat % 65536 + 1) 65535 := by rw [bits_low]; rfl
  have hmask := entryMask_getLsbD ⟨b, hb⟩
  have hzero : BitVec.getLsbD (0 : Word) b = false := BitVec.getLsbD_zero
  simp only [entryWord0, hcount, BitVec.getLsbD_or, BitVec.getLsbD_and, foldl_flags_getLsbD _ _ b hb, hmask,
    hzero, Bool.false_or, BitVec.getLsbD_ofNat, decide_eq_true hb, Bool.true_and]

theorem countBits_high (n : Nat) {b : Nat} (h : 16 ≤ b) : (min (n + 1) 65535).testBit b = false :=
  Nat.testBit_lt_two_pow (Nat.lt_of_lt_of_le (by omega : min (n + 1) 65535 < 2 ^ 16)
    (Nat.pow_le_pow_right (by omega) h))

theorem entryWord0_unlocked (w : Word) (full : List Bool) : (entryWord0 w full).getLsbD 24 = false := by
  rw [entryWord0_getLsbD w full (by omega), countBits_high _ (by omega)]
  simp [List.range, List.range.loop]

/-- Neither a sticky flag nor the locked flag nor the count. -/
theorem entryWord0_kept (w : Word) (full : List Bool) {b : Nat} (hlow : 21 ≤ b) (hb : b < 32) (hne : b ≠ 24) :
    (entryWord0 w full).getLsbD b = w.getLsbD b := by
  have hnone : (List.range 5).any (fun k => full.getD k false && decide (16 + k = b)) = false := by
    simp only [List.any_eq_false, List.mem_range, Bool.and_eq_true, decide_eq_true_eq, not_and]
    omega
  rw [entryWord0_getLsbD w full hb, countBits_high _ (by omega), hnone,
    decide_eq_true (⟨by omega, hne⟩ : 16 ≤ b ∧ b ≠ 24)]
  simp

theorem entryWord0_sticky (w : Word) (full : List Bool) {k : Nat} (hk : k < 5) :
    (entryWord0 w full).getLsbD (16 + k) = (w.getLsbD (16 + k) || full.getD k false) := by
  have hone : (List.range 5).any (fun j => full.getD j false && decide (16 + j = 16 + k)) = full.getD k false := by
    rw [Bool.eq_iff_iff]
    simp only [List.any_eq_true, List.mem_range, Bool.and_eq_true, decide_eq_true_eq]
    constructor
    · rintro ⟨j, -, hfull, hj⟩
      rwa [Nat.add_left_cancel hj] at hfull
    · exact fun hfull => ⟨k, hk, hfull, rfl⟩
  rw [entryWord0_getLsbD w full (by omega), countBits_high _ (by omega), hone,
    decide_eq_true (⟨by omega, by omega⟩ : 16 ≤ 16 + k ∧ 16 + k ≠ 24)]
  simp

theorem entryWord0_count (w : Word) (full : List Bool) :
    (entryWord0 w full).toNat % 65536 = min (w.toNat % 65536 + 1) 65535 := by
  refine Nat.eq_of_testBit_eq fun b => ?_
  rw [show 65536 = 2 ^ 16 from rfl, Nat.testBit_mod_two_pow]
  by_cases hb : b < 16
  · have hnone : (List.range 5).any (fun k => full.getD k false && decide (16 + k = b)) = false := by
      simp only [List.any_eq_false, List.mem_range, Bool.and_eq_true, decide_eq_true_eq, not_and]
      omega
    have hbits := entryWord0_getLsbD w full (b := b) (by omega)
    rw [hnone, decide_eq_false (by omega : ¬ (16 ≤ b ∧ b ≠ 24)), Bool.and_false, Bool.false_or, Bool.false_or] at hbits
    rw [decide_eq_true hb, Bool.true_and]
    exact hbits
  · rw [decide_eq_false hb, Bool.false_and]
    exact (countBits_high _ (by omega)).symm

theorem satOver_top_iff (n a b : Nat) : satOver (top n) a b = true ↔ 2 ^ n ≤ a + b := by
  have hpos := Nat.two_pow_pos n
  rw [satOver, top, decide_eq_true_eq]
  omega

/-- Which of the five fields pass their width. -/
theorem entryOverflows_getD_iff (d : Vector Word 8) (u : Update) {k : Nat} :
    (entryOverflows d u).getD k false = true ↔
      (k = 0 ∧ 2 ^ 64 ≤ (d[1]).toNat + 2 ^ 32 * (d[2]).toNat + u.energy) ∨
      (k = 1 ∧ 2 ^ 32 ≤ (d[3]).toNat + u.pulled) ∨ (k = 2 ∧ 2 ^ 32 ≤ (d[4]).toNat + u.packed) ∨
      (k = 3 ∧ 2 ^ 32 ≤ (d[5]).toNat + u.changeover) ∨ (k = 4 ∧ 2 ^ 32 ≤ (d[6]).toNat + u.count) := by
  rcases k with _ | _ | _ | _ | _ | k <;>
    simp only [entryOverflows, List.getD_cons_zero, List.getD_cons_succ, List.getD_nil, satOver_top_iff, joinWords] <;>
    simp

theorem any_id_iff_getD (l : List Bool) : l.any id = true ↔ ∃ k, l.getD k false = true := by
  simp only [List.any_eq_true, id_eq, exists_eq_right, List.mem_iff_getElem?]
  refine exists_congr fun k => ?_
  cases h : l[k]? <;> simp [List.getD, h]

/-! ### The answer -/

theorem State.takeReserveRead_unlocked {s : State} {d : Vector Word 8} {u : Update} {rest : List Update}
    (hopen : (d[0]).getLsbD 24 = false) (hqueue : s.tally.queue = u :: rest) : s.takeReserveRead (.ok d) = { s with
      pass := { s.pass with port := .free },
      tally := { s.tally with computed := some (computedEntry d u), state := .writeWait },
      alerts := s.alerts.latchIf ((entryOverflows d u).any id) .saturation } := by
  have hentry : entryLocked d = false := hopen
  simp only [State.takeReserveRead, hentry, hqueue, Bool.false_eq_true, if_false]

theorem State.takeReserveRead_locked {s : State} {d : Vector Word 8} (hlocked : (d[0]).getLsbD 24 = true) :
    s.takeReserveRead (.ok d) = s.freePort.withLedger (s.freePort.ledger.loss s.cfg true) := if_pos hlocked

/-- A loss by a locked entry before the eighth. -/
theorem Ledger.loss_locked_early (m : Image) {x : Ledger} (h : x.tally.losses + 1 < 8) : x.loss m true = {
    tally := { x.tally with
      losses := x.tally.losses + 1, lockedLoss := true, computed := none, reservation := none, state := .backoff,
      backoff := some (backoffDraw x.tally.draws (x.tally.losses + 1)), draws := x.tally.draws + 1 },
    alerts := x.alerts.report m .tallyLoss } := by
  rw [Ledger.loss, if_neg (by omega), Bool.or_true]

theorem Ledger.loss_locked_last (m : Image) {x : Ledger} {u : Update} {rest : List Update}
    (h : ¬ x.tally.losses + 1 < 8) (hqueue : x.tally.queue = u :: rest) :
    x.loss m true = Ledger.miss .contention true u {
      tally := { x.tally with
        queue := rest, state := .idle, losses := 0, lockedLoss := false, computed := none,
        reservation := none, backoff := none },
      alerts := x.alerts.report m .tallyLoss } := by
  rw [Ledger.loss, if_pos (by omega), Bool.or_true, Ledger.sendToMissList]
  simp only [hqueue, Tally.finish, List.tail_cons]

/-- Settles O44: an unlocked entry, a locked entry, a fault. -/
theorem reserveReadFormsTheComputedEntry : Obligations.ReserveReadFormsTheComputedEntry := by
  unfold Obligations.ReserveReadFormsTheComputedEntry
  intro s txn u rest hsteady hport hqueue served
  have hcan : (s.steady && s.pass.port.isReserveRead) = true := by rw [hsteady, hport]; rfl
  refine ⟨?unlocked, ?locked, ?fault⟩
  case unlocked =>
    intro d hopen energy passes
    have hread := State.takeReserveRead_unlocked hopen hqueue
    obtain ⟨m, hexec⟩ := stepWhen_of_eq (f := State.takeReserveRead (.ok d)) hcan hread
    have hhas (b : AlertBit) := Alerts.has_latchIf s.alerts ((entryOverflows d u).any id) .saturation b
    have hany : (entryOverflows d u).any id = true ↔ ∃ k, passes k :=
      (any_id_iff_getD _).trans (exists_congr fun k => entryOverflows_getD_iff d u)
    refine ⟨_, entryWord0 d[0] (entryOverflows d u), hexec, rfl, entryWord0_unlocked _ _,
      fun b hlow hb => entryWord0_kept _ _ (by omega) hb (by omega),
      fun b hlow hb => entryWord0_kept _ _ hlow (by omega) (by omega), fun k hk => ?_, entryWord0_count _ _, ?_,
      fun b hb => ?_, Alerts.latchIf_counters _ _ _⟩
    · rw [entryWord0_sticky _ _ hk, Bool.or_eq_true]
      exact or_congr_right (entryOverflows_getD_iff d u)
    · refine (Bool.eq_iff_iff.mp (hhas .saturation)).trans ?_
      rw [Bool.or_eq_true, decide_eq_true rfl, Bool.and_true, hany]
    · refine (hhas b).trans ?_
      rw [decide_eq_false hb, Bool.and_false, Bool.or_false]
  case locked =>
    intro d hlocked
    have hread := State.takeReserveRead_locked (s := s) hlocked
    by_cases hearly : s.tally.losses + 1 < 8
    · rw [Ledger.loss_locked_early s.cfg (x := s.freePort.ledger) hearly] at hread
      obtain ⟨m, hexec⟩ := stepWhen_of_eq (f := State.takeReserveRead (.ok d)) hcan hread
      exact ⟨_, hexec, rfl, rfl, rfl, fun _ => ⟨rfl, rfl, rfl, rfl, rfl, _, m, backoffDraw_lt _ _, rfl⟩,
        fun hlast => absurd hearly hlast⟩
    · rw [Ledger.loss_locked_last s.cfg (x := s.freePort.ledger) hearly hqueue] at hread
      obtain ⟨m, hexec⟩ := stepWhen_of_eq (f := State.takeReserveRead (.ok d)) hcan hread
      have hframe := Ledger.miss_tally_frame .contention true u
        { tally := served, alerts := s.alerts.report s.cfg .tallyLoss }
      refine ⟨_, hexec, ?_, ?_, rfl, fun hfew => absurd hfew hearly, fun _ => ⟨?_, ?_, ?_, m, rfl⟩⟩
      · exact (congrArg Tally.reservation hframe :)
      · exact (congrArg Tally.computed hframe :)
      · exact (congrArg Tally.queue hframe :)
      · exact (congrArg Tally.state hframe :)
      · exact Ledger.has_miss _ _ _ _
  case fault =>
    have hfault : s.takeReserveRead .error =
        (let x : Ledger := Ledger.miss .readFault false u { tally := served, alerts := s.alerts.latch .memoryFault }
         { s with pass := { s.pass with port := .free }, tally := x.tally, alerts := x.alerts }) :=
      congrArg s.freePort.withLedger (Ledger.fail_head (x := s.freePort.ledger) hqueue .readFault)
    exact stepWhen_of_eq hcan hfault

end Sys2Proof.Machine
end

section
/-! SUPPORT. A complete record: its checks, its place in the queue and its fields (R29 to R35). -/

namespace Sys2Proof.Machine

/-! ### The fields of a record -/

theorem recordKindOf_getD (n : Nat) :
    (recordKindOf n).getD .reading = if n = 2 then .resetNotice else .reading := by
  unfold recordKindOf
  split
  · rfl
  · rfl
  · next hne => exact (if_neg hne).symm

theorem headerKind_eq (w : Word) : bits w 23 20 = w.toNat / 2 ^ 20 % 16 := rfl

theorem truncate_eight_eq (w : Word) : w.truncate 8 = BitVec.ofNat 8 w.toNat := by
  apply BitVec.eq_of_toNat_eq
  simp

/-- The record of a header, a channel word, tags and a value. -/
theorem tapRecordOf_eq (h w1 v : Word) (tags : List Word) : tapRecordOf (h :: w1 :: (tags ++ [v])) = {
    kind := if h.toNat / 2 ^ 20 % 16 = 2 then .resetNotice else .reading,
    sequence := BitVec.ofNat 8 h.toNat, channel := w1.toNat % 4096, tags := tags, value := v } := by
  have hlast : (h :: w1 :: (tags ++ [v])).getLastD 0 = v :=
    List.getLastD_concat (l := h :: w1 :: tags)
  simp only [tapRecordOf, List.getD_cons_zero, List.getD_cons_succ, recordKindOf_getD, headerKind_eq,
    truncate_eight_eq, bits_low, List.drop_succ_cons, List.drop_zero, List.dropLast_concat, hlast]
  rfl

/-! ### The checks -/

theorem Desk.complete_injected {m : Image} {i : Fin 4} {x : Desk} (h : (x.window i).inject = true) (ws : List Word) :
    x.complete m i ws = (x.setWindow i { x.window i with inject := false }).report m .checkFail := if_pos h

theorem Desk.complete_unchecked {m : Image} {i : Fin 4} {x : Desk} {ws : List Word} (h : (x.window i).inject = false)
    (hsum : onesSum ws ≠ 65535) : x.complete m i ws = x.report m .checkFail := by
  have hvalid : spanValid ws = false := by simp [spanValid, hsum]
  simp only [Desk.complete, h, hvalid, Bool.false_eq_true, if_false]

theorem Desk.complete_checked {m : Image} {i : Fin 4} {x : Desk} {ws : List Word} (h : (x.window i).inject = false)
    (hsum : onesSum ws = 65535) : x.complete m i ws =
      if m.admits (tapRecordOf ws).channel = true then x.enqueue m (tapRecordOf ws) else x.report m .admitDrop := by
  have hvalid : spanValid ws = true := by simp [spanValid, hsum]
  simp only [Desk.complete, h, hvalid, Bool.false_eq_true, if_true, if_false]

/-- Settles O45: check by check, then the queue. -/
theorem completeRecordIsCheckedAdmittedAndQueued : Obligations.CompleteRecordIsCheckedAdmittedAndQueued := by
  unfold Obligations.CompleteRecordIsCheckedAdmittedAndQueued
  refine ⟨fun m i ws x => ?_, fun h w1 t1 t2 v => ?_⟩
  · intro y r
    exact ⟨fun hinject => Desk.complete_injected hinject ws,
      fun hinject hsum => Desk.complete_unchecked hinject hsum,
      fun hinject hsum hadmits => (Desk.complete_checked hinject hsum).trans
        (if_neg (Bool.not_eq_true _ ▸ hadmits)),
      fun hinject hsum hadmits hroom => (Desk.complete_checked hinject hsum).trans
        ((if_pos hadmits).trans (if_pos hroom)),
      fun hinject hsum hadmits hfull => (Desk.complete_checked hinject hsum).trans
        ((if_pos hadmits).trans (if_neg hfull))⟩
  · intro kind seq
    exact ⟨tapRecordOf_eq h w1 v [], tapRecordOf_eq h w1 v [t1], tapRecordOf_eq h w1 v [t1, t2]⟩

end Sys2Proof.Machine
end

section
/-! SUPPORT. Window bursts: header words, the window of a burst, records that start, continue and follow one another
in a burst (R20 to R26). -/

namespace Sys2Proof.Machine

/-! ### Header words, windows and examined words (R20, R21, R26) -/

theorem recordKindOf_isSome_iff (n : Nat) : (recordKindOf n).isSome = true ↔ n = 1 ∨ n = 2 := by
  unfold recordKindOf
  split
  · simp
  · simp
  · next hone htwo => exact iff_of_false Bool.false_ne_true (not_or.mpr ⟨hone, htwo⟩)

/-- The top byte of a word. -/
theorem bits_topByte (w : Word) : bits w 31 24 = w.toNat / 2 ^ 24 := by
  have hw := w.isLt
  unfold bits
  omega

theorem headerLength_eq_some_iff (w : WriteWord) (n : Nat) : headerLength w = some n ↔
    w.enables = 15 ∧ w.data.toNat / 2 ^ 24 = 0x5C ∧
      (w.data.toNat / 2 ^ 20 % 16 = 1 ∨ w.data.toNat / 2 ^ 20 % 16 = 2) ∧ w.data.toNat / 2 ^ 16 % 16 ≤ 2 ∧
      w.data.toNat / 2 ^ 8 % 256 = 3 + w.data.toNat / 2 ^ 16 % 16 ∧ n = w.data.toNat / 2 ^ 8 % 256 := by
  simp only [headerLength, bits_topByte, recordKindOf_isSome_iff, allEnabled_iff, Option.ite_none_right_eq_some,
    Option.some.injEq, and_assoc]
  rw [eq_comm (a := n)]
  rfl

/-- A record has at least three words. -/
theorem three_le_of_headerLength {w : WriteWord} {n : Nat} (h : headerLength w = some n) : 3 ≤ n := by
  obtain ⟨-, -, -, -, hlength, rfl⟩ := (headerLength_eq_some_iff w n).mp h
  omega

theorem markerWord_iff (w : WriteWord) : markerWord w = true ↔ w.enables = 15 ∧ w.data.toNat / 2 ^ 24 = 0x5C := by
  rw [markerWord, Bool.and_eq_true, beq_iff_eq, bits_topByte, allEnabled_iff]

theorem Window.holds_iff (w : Window) (a : Nat) : w.holds a = true ↔
    w.enabled = true ∧ w.base ≤ a ∧ a < w.base + 4 * w.size := by
  simp only [Window.holds, Bool.and_eq_true, decide_eq_true_eq, and_assoc]

theorem Image.windowAt_eq_some_iff (m : Image) (a : Nat) (i : Fin 4) : m.windowAt a = some i ↔
    (m.window i).holds a = true ∧ ∀ j, j < i → ¬ (m.window j).holds a = true := by
  rw [Image.windowAt, ← Fin.find?_eq_find?_finRange, Fin.find?_eq_some_iff]
  simp only [Bool.not_eq_true]

theorem Image.windowAt_eq_none_iff (m : Image) (a : Nat) :
    m.windowAt a = none ↔ ∀ i, ¬ (m.window i).holds a = true := by
  simp only [Image.windowAt, List.find?_eq_none, List.mem_finRange, forall_const]

theorem Window.examined_getElem? (w : Window) {a : Nat} (ws : List WriteWord) (k : Nat) (hbase : w.base % 4 = 0)
    (ha : a % 4 = 0) : (w.examined a ws)[k]? = if a + 4 * k < w.base + 4 * w.size then ws[k]? else none := by
  rw [Window.examined, List.getElem?_take]
  exact if_congr (by omega) rfl rfl

/-! ### The buffer of a window -/

theorem Desk.window_setWindow_self (x : Desk) (i : Fin 4) (w : WindowState) : (x.setWindow i w).window i = w :=
  set_get_self x.intake.windows i w

theorem Desk.window_emptyBuffer (x : Desk) (i : Fin 4) : (x.emptyBuffer i).window i =
    { x.window i with partialRecord := none, timer := none } := x.window_setWindow_self i _

/-- The checks on a record leave the buffers as they are. -/
theorem Desk.complete_partialRecord (m : Image) (i : Fin 4) (ws : List Word) (x : Desk) :
    ((x.complete m i ws).window i).partialRecord = (x.window i).partialRecord := by
  unfold Desk.complete
  split
  · exact (congrArg WindowState.partialRecord (x.window_setWindow_self i { x.window i with inject := false }) :)
  · split
    · split
      · unfold Desk.enqueue
        split <;> rfl
      · rfl
    · rfl

/-! ### A record that starts in a burst (R23, R25) -/

section Start
variable {m : Image} {i : Fin 4} {a len : Nat} {ws : List WriteWord} {x : Desk}

theorem Desk.start_beyond (h : (m.window i).last < a + 4 * (len - 1)) :
    x.start m i a len ws = (x.report m .stray, false) := if_pos h

theorem all_allEnabled_iff (l : List WriteWord) : l.all allEnabled = true ↔ ∀ u ∈ l, u.enables = 15 := by
  simp only [List.all_eq_true, allEnabled_iff]

theorem all_allEnabled_eq_false {l : List WriteWord} (h : ∃ u ∈ l, u.enables ≠ 15) : l.all allEnabled = false := by
  rw [← Bool.not_eq_true, all_allEnabled_iff]
  obtain ⟨u, hmem, hne⟩ := h
  exact fun hall => hne (hall u hmem)

theorem Desk.start_disabled (hfits : a + 4 * (len - 1) ≤ (m.window i).last) (h : ∃ u ∈ ws.take len, u.enables ≠ 15) :
    x.start m i a len ws = (x.report m .stray, false) := by
  rw [Desk.start, if_neg (Nat.not_lt.mpr hfits), all_allEnabled_eq_false h]
  rfl

theorem Desk.start_whole (hfits : a + 4 * (len - 1) ≤ (m.window i).last) (hall : ∀ u ∈ ws.take len, u.enables = 15)
    (h : len ≤ ws.length) :
    x.start m i a len ws = (x.complete m i ((ws.take len).map WriteWord.data), true) := by
  rw [Desk.start, if_neg (Nat.not_lt.mpr hfits), (all_allEnabled_iff _).mpr hall]
  exact if_pos h

theorem Desk.start_waiting (hfits : a + 4 * (len - 1) ≤ (m.window i).last) (hall : ∀ u ∈ ws.take len, u.enables = 15)
    (h : ws.length < len) : x.start m i a len ws = (x.setWindow i { x.window i with
      partialRecord := some { words := ws.map WriteWord.data, length := len, expected := a + 4 * ws.length },
      timer := some (m.window i).timeout }, false) := by
  rw [Desk.start, if_neg (Nat.not_lt.mpr hfits), (all_allEnabled_iff _).mpr hall]
  exact if_neg (Nat.not_le.mpr h)

end Start

/-! ### The words after a record (R26) -/

theorem Desk.scan_nil (m : Image) (i : Fin 4) (fuel a : Nat) (x : Desk) : x.scan m i fuel a [] = x := by
  cases fuel <;> rfl

theorem Desk.scan_header {w : WriteWord} {len : Nat} (h : headerLength w = some len) (m : Image) (i : Fin 4)
    (fuel a : Nat) (ws : List WriteWord) (x : Desk) : x.scan m i (fuel + 1) a (w :: ws) =
      if (x.start m i a len (w :: ws)).2 = true
      then Desk.scan m i fuel (a + 4 * len) ((w :: ws).drop len) (x.start m i a len (w :: ws)).1
      else (x.start m i a len (w :: ws)).1 := by
  rw [Desk.scan, h]

theorem Desk.scan_other {w : WriteWord} (h : headerLength w = none) (m : Image) (i : Fin 4)
    (fuel a : Nat) (ws : List WriteWord) (x : Desk) : x.scan m i (fuel + 1) a (w :: ws) =
      if markerWord w = true then x.report m .stray else x := by
  rw [Desk.scan, h]

/-- As much fuel as there are words is enough: each record takes one of it and at least three words. -/
theorem Desk.scan_enough (m : Image) (i : Fin 4) (fuel : Nat) : ∀ (fuel' a : Nat) (ws : List WriteWord) (x : Desk),
    ws.length ≤ fuel → ws.length ≤ fuel' → x.scan m i fuel a ws = x.scan m i fuel' a ws := by
  induction fuel with
  | zero =>
    intro fuel' a ws x hws _
    rw [List.length_eq_zero_iff.mp (Nat.le_zero.mp hws), Desk.scan_nil, Desk.scan_nil]
  | succ fuel ih =>
    intro fuel' a ws x hws hws'
    cases ws with
    | nil => rw [Desk.scan_nil, Desk.scan_nil]
    | cons w ws =>
      cases fuel' with
      | zero => simp at hws'
      | succ fuel' =>
        cases hlen : headerLength w with
        | none => rw [Desk.scan_other hlen, Desk.scan_other hlen]
        | some len =>
          have hthree := three_le_of_headerLength hlen
          have hdrop : ((w :: ws).drop len).length = ws.length + 1 - len := by simp
          simp only [List.length_cons] at hws hws'
          rw [Desk.scan_header hlen, Desk.scan_header hlen, ih fuel' _ _ _ (by omega) (by omega)]

/-- A burst at an empty buffer starts with a header word or is stray (R22). -/
theorem Desk.burst_empty {m : Image} {i : Fin 4} {x : Desk} (h : (x.window i).partialRecord = none) (a : Nat)
    (w : WriteWord) (ws : List WriteWord) : x.burst m i a (w :: ws) =
      if (headerLength w).isSome = true then x.scan m i 16 a (w :: ws) else x.report m .stray := by
  simp only [Desk.burst, h]

/-- What follows a record in a burst: a header word begins a further burst, a marker word is stray. -/
structure Desk.GoesOn (m : Image) (i : Fin 4) (a : Nat) (rest : List WriteWord) (y z : Desk) : Prop where
  ended : rest = [] → z = y
  padding : ∀ u us, rest = u :: us → headerLength u = none → markerWord u = false → z = y
  marker : ∀ u us, rest = u :: us → headerLength u = none → markerWord u = true →
    z = { y with alerts := y.alerts.report m .stray }
  header : ∀ u us, rest = u :: us → (headerLength u).isSome = true → z = y.burst m i a (u :: us)

theorem Desk.scan_goesOn {m : Image} {i : Fin 4} {y : Desk} {fuel : Nat} {rest : List WriteWord} (a : Nat)
    (hempty : (y.window i).partialRecord = none) (hfuel : rest.length ≤ fuel) (hburst : rest.length ≤ 16) :
    Desk.GoesOn m i a rest y (y.scan m i fuel a rest) where
  ended := by
    rintro rfl
    exact Desk.scan_nil m i fuel a y
  padding := by
    rintro u us rfl hlen hmarker
    obtain ⟨k, rfl⟩ := Nat.exists_eq_add_of_le' (Nat.le_trans (Nat.le_add_left 1 us.length) hfuel)
    rw [Desk.scan_other hlen, hmarker, if_neg Bool.false_ne_true]
  marker := by
    rintro u us rfl hlen hmarker
    obtain ⟨k, rfl⟩ := Nat.exists_eq_add_of_le' (Nat.le_trans (Nat.le_add_left 1 us.length) hfuel)
    rw [Desk.scan_other hlen, if_pos hmarker]
    rfl
  header := by
    rintro u us rfl hlen
    rw [Desk.burst_empty hempty, if_pos hlen]
    exact Desk.scan_enough m i fuel 16 a _ y hfuel hburst

/-! ### A burst that continues a record (R24, R25) -/

section Continue
variable {m : Image} {i : Fin 4} {a : Nat} {p : Partial} {ws : List WriteWord} {x : Desk}

theorem Desk.continue_disabled (h : ∃ u ∈ ws.take (p.length - p.words.length), u.enables ≠ 15) :
    x.continue m i a p ws = (x.emptyBuffer i).report m .stray := by
  rw [Desk.continue, all_allEnabled_eq_false h]
  rfl

theorem Desk.continue_waiting (hall : ∀ u ∈ ws.take (p.length - p.words.length), u.enables = 15)
    (h : ws.length < p.length - p.words.length) : x.continue m i a p ws = x.setWindow i { x.window i with
      partialRecord := some { p with
        words := p.words ++ ws.map WriteWord.data, expected := p.expected + 4 * ws.length } } := by
  rw [Desk.continue, (all_allEnabled_iff _).mpr hall, List.take_of_length_le (Nat.le_of_lt h)]
  exact if_neg (Nat.not_le.mpr h)

theorem Desk.continue_whole (hall : ∀ u ∈ ws.take (p.length - p.words.length), u.enables = 15)
    (h : p.length - p.words.length ≤ ws.length) : x.continue m i a p ws =
      ((x.emptyBuffer i).complete m i
        (p.words ++ (ws.take (p.length - p.words.length)).map WriteWord.data)).scan m i 16
        (a + 4 * (p.length - p.words.length)) (ws.drop (p.length - p.words.length)) := by
  rw [Desk.continue, (all_allEnabled_iff _).mpr hall]
  exact if_pos h

theorem Desk.burst_expected (h : (x.window i).partialRecord = some p) (w : WriteWord) (rest : List WriteWord)
    (ha : a = p.expected) : x.burst m i a (w :: rest) = x.continue m i a p (w :: rest) := by
  simp only [Desk.burst, h, if_pos ha]

theorem Desk.burst_elsewhere (h : (x.window i).partialRecord = some p) (w : WriteWord) (rest : List WriteWord)
    (ha : a ≠ p.expected) : x.burst m i a (w :: rest) =
      if (headerLength w).isSome = true then ((x.emptyBuffer i).report m .stray).burst m i a (w :: rest)
      else x.report m .stray := by
  have hempty : (((x.emptyBuffer i).report m .stray).window i).partialRecord = none :=
    congrArg WindowState.partialRecord (x.window_emptyBuffer i)
  by_cases hheader : (headerLength w).isSome = true
  · rw [if_pos hheader, Desk.burst_empty hempty, if_pos hheader]
    simp only [Desk.burst, h, if_neg ha, if_pos hheader]
  · rw [if_neg hheader]
    simp only [Desk.burst, h, if_neg ha, if_neg hheader]

end Continue

/-- Settles O46: words and windows, then the burst at an empty and at a filled buffer. -/
theorem windowBurstsFormRecordsOrStray : Obligations.WindowBurstsFormRecordsOrStray := by
  unfold Obligations.WindowBurstsFormRecordsOrStray
  refine ⟨fun w => ⟨headerLength_eq_some_iff w, markerWord_iff w⟩, fun m a => ?windows,
    fun w a ws k hbase ha => w.examined_getElem? ws k hbase ha, fun m a ws x hlength => ?empty, ?filled⟩
  case windows =>
    simp only [← Window.holds_iff]
    exact ⟨m.windowAt_eq_some_iff a, m.windowAt_eq_none_iff a⟩
  case empty =>
    refine ⟨fun hwindow spill => Desk.notice_outside spill ws x hwindow, fun i hwindow => ?_, ?_⟩
    · intro part
      exact ⟨Desk.notice_spilling ws x (hwindow ▸ Option.some_ne_none i), by rw [Desk.notice, hwindow]; rfl⟩
    · rintro i w rest rfl hempty stray
      have hburst := Desk.burst_empty (m := m) hempty a w rest
      refine ⟨fun hlen => by rw [hburst, hlen]; rfl, fun len hlen => ?_⟩
      rw [hlen, if_pos Option.isSome_some, Desk.scan_header hlen] at hburst
      refine ⟨fun hbeyond => ?_, fun hfits => ⟨fun hdisabled => ?_, fun hall => ⟨fun hshort => ?_, fun hwhole => ?_⟩⟩⟩
      · rw [hburst, Desk.start_beyond hbeyond]
        rfl
      · rw [hburst, Desk.start_disabled hfits hdisabled]
        rfl
      · rw [hburst, Desk.start_waiting hfits hall hshort]
        rfl
      · intro y
        rw [Desk.start_whole hfits hall hwhole, if_pos rfl] at hburst
        have hthree := three_le_of_headerLength hlen
        have hrest : ((w :: rest).drop len).length ≤ 15 := by
          rw [List.length_drop]
          omega
        have hy : (y.window i).partialRecord = none := (x.complete_partialRecord m i _).trans hempty
        have hon := Desk.scan_goesOn (m := m) (a + 4 * len) hy hrest (Nat.le_succ_of_le hrest)
        rw [hburst]
        exact ⟨fun hend => hon.ended (List.drop_eq_nil_of_le (Nat.le_of_eq hend)),
          fun u us hdrop => ⟨hon.padding u us hdrop, hon.marker u us hdrop, hon.header u us hdrop⟩⟩
  case filled =>
    intro m i a w rest p x hlength hpartial hmissing ws missing emptied abandoned
    refine ⟨fun ha => ?_, fun ha hheader => ?_, fun ha hheader => ?_⟩
    · rw [show x.burst m i a ws = _ from Desk.burst_expected hpartial w rest ha]
      refine ⟨Desk.continue_disabled, fun hall => ⟨Desk.continue_waiting hall, ?_⟩⟩
      have hempty : (emptied.window i).partialRecord = none :=
        congrArg WindowState.partialRecord (x.window_emptyBuffer i)
      have hrest : (ws.drop missing).length ≤ 16 := by
        rw [List.length_drop]
        exact Nat.le_trans (Nat.sub_le _ _) (Nat.succ_le_succ hlength)
      have hon := Desk.scan_goesOn (m := m) (a + 4 * missing)
        ((emptied.complete_partialRecord m i (p.words ++ (ws.take missing).map WriteWord.data)).trans hempty)
        hrest hrest
      constructor
      · intro hend
        have htake : ws.take missing = ws := List.take_of_length_le (Nat.le_of_eq hend)
        rw [Desk.continue_whole hall (Nat.le_of_eq hend.symm)]
        refine (hon.ended (List.drop_eq_nil_of_le (Nat.le_of_eq hend))).trans ?_
        rw [htake]
      · intro u us hdrop y
        have hwhole : missing ≤ ws.length := Nat.le_of_not_lt fun hlt =>
          List.cons_ne_nil u us (hdrop.symm.trans (List.drop_eq_nil_of_le (Nat.le_of_lt hlt)))
        rw [Desk.continue_whole hall hwhole]
        exact ⟨hon.padding u us hdrop, hon.marker u us hdrop, hon.header u us hdrop⟩
    · rw [show x.burst m i a ws = _ from Desk.burst_elsewhere hpartial w rest ha, hheader]
      rfl
    · rw [show x.burst m i a ws = _ from Desk.burst_elsewhere hpartial w rest ha, if_pos hheader]
      rfl

end Sys2Proof.Machine
end

section
/-! SUPPORT. The fetch: its bursts and the image that they fill (R146, R147). -/

namespace Sys2Proof.Machine

/-! ### The words of a burst in the shadow -/

theorem Image.fill_cons (m : Image) (first : Nat) (w : Word) (ws : List Word) :
    m.fill first (w :: ws) = (m.set first w).fill (first + 1) ws := rfl

theorem Image.get_fill_outside (ws : List Word) : ∀ (m : Image) {first i : Nat}, i < first ∨ first + ws.length ≤ i →
    (m.fill first ws).get i = m.get i := by
  induction ws with
  | nil => exact fun _ _ _ _ => rfl
  | cons w ws ih =>
    intro m first i h
    rw [List.length_cons] at h
    rw [Image.fill_cons, ih _ (by omega), Image.get_set_other _ _ _ _ (by omega)]

theorem Image.get_fill_inside (ws : List Word) : ∀ {m : Image} (first : Nat) {k : Nat} {w : Word}, m.wf = true →
    ws[k]? = some w → (m.fill first ws).get (first + k) = w := by
  induction ws with
  | nil =>
    intro _ _ _ _ _ h
    cases h
  | cons v ws ih =>
    intro m first k w hwf h
    rw [Image.fill_cons]
    cases k with
    | zero =>
      obtain rfl : v = w := Option.some.inj h
      exact (Image.get_fill_outside ws _ (.inl (Nat.lt_succ_self first))).trans (Image.get_set_self m first v hwf)
    | succ k =>
      rw [← ih (first + 1) (Image.wf_set m first v hwf) h, Nat.add_assoc, Nat.add_comm 1 k]

/-! ### The answer to a fetch read -/

/-- No request is made while FETCHING (R173). -/
theorem State.requestMirror_of_fetching {s : State} (h : s.setup.part = .fetching) : s.requestMirror = s := by
  unfold State.requestMirror Alerts.request
  rw [h]

theorem State.answerFetch_error (s : State) : s.answerFetch .error = { s with
    pass := { s.pass with port := .free },
    setup := { s.setup with part := .unset, candidate := none, lastCommand := s.setup.shadow.get 2 },
    alerts := { s.alerts with
      latched := s.alerts.latched ||| AlertBit.memoryFault.mask ||| AlertBit.setupRejected.mask,
      applyResult := { generation := 0, code := 9, index := s.setup.fetchPosition }, owed := .everything } } := by
  simp only [State.answerFetch, State.endFetch, Alerts.latch_eq, Alerts.giveApplyResult]
  rfl

/-- Settles O48: the burst's words in the shadow, or the fetch ended. -/
theorem fetchBurstsFillTheShadow : Obligations.FetchBurstsFillTheShadow := by
  unfold Obligations.FetchBurstsFillTheShadow
  intro s txn hsteady hpart hport k
  have hcan : (s.steady && s.setup.part == .fetching && s.pass.port.isFetch) = true := by
    rw [hsteady, hpart, hport]
    rfl
  refine ⟨fun d hwf => ⟨s.setup.shadow.fill (16 * k) d.toList, ?_, fun i => ?_, fun i hi => ?_⟩,
    stepWhen_of_eq hcan s.answerFetch_error⟩
  · exact (stepWhen_can (State.answerFetch (.ok d)) s hcan).trans
      (congrArg Host.Outcome.next (State.requestMirror_of_fetching hpart))
  · exact Image.get_fill_inside d.toList (16 * k) hwf (by simp)
  · exact Image.get_fill_outside d.toList _ (by simpa using hi)

end Sys2Proof.Machine
end

section
/-! SUPPORT. The Alert Unit: latching and counting, the ALERT output, edges, mirror writes and the words of each
group (R165 to R173, R177, R186). -/

namespace Sys2Proof.Machine

/-! ### What a latch and a report make owed (R165) -/

/-- The latched word only grows, and the latched group is owed where it does. -/
structure Alerts.Latched (a b : Alerts) : Prop where
  grows : ∀ k, a.latched.getLsbD k = true → b.latched.getLsbD k = true
  owed : b.owed = { a.owed with latched := a.owed.latched || decide (b.latched ≠ a.latched) }

theorem Alerts.Latched.refl (a : Alerts) : Alerts.Latched a a :=
  ⟨fun _ => id, by simp⟩

theorem Alerts.or_mask_eq_iff (a : Alerts) (x : AlertBit) : a.latched ||| x.mask = a.latched ↔ a.has x = true := by
  refine ⟨fun h => ?_, Alerts.or_mask_of_has⟩
  have hbit := congrArg (fun v => v.getLsbD x.number) h
  simp only [BitVec.getLsbD_or, AlertBit.getLsbD_mask x _ x.number_lt, decide_true, Bool.or_true] at hbit
  exact hbit.symm

theorem Alerts.Latched.latch (a : Alerts) (x : AlertBit) : Alerts.Latched a (a.latch x) := by
  rw [Alerts.latch_eq]
  refine ⟨fun k hk => ?_, ?_⟩
  · rw [BitVec.getLsbD_or, hk, Bool.true_or]
  · have hclear : decide (a.latched ||| x.mask ≠ a.latched) = !a.has x := by
      rw [Bool.eq_iff_iff, decide_eq_true_eq, ne_eq, a.or_mask_eq_iff x, Bool.not_eq_true, Bool.not_eq_true']
    rw [hclear]

theorem Alerts.Latched.latchIf (a : Alerts) (c : Bool) (x : AlertBit) : Alerts.Latched a (a.latchIf c x) := by
  cases c with
  | false => exact .refl a
  | true => exact .latch a x

theorem Alerts.Latched.trans {a b c : Alerts} (hab : Alerts.Latched a b) (hbc : Alerts.Latched b c) :
    Alerts.Latched a c := by
  refine ⟨fun k hk => hbc.grows k (hab.grows k hk), ?_⟩
  have hback (h : c.latched = a.latched) : b.latched = a.latched := by
    refine BitVec.eq_of_getLsbD_eq fun k _ => Bool.eq_iff_iff.mpr ⟨fun hb => ?_, hab.grows k⟩
    rw [← h]
    exact hbc.grows k hb
  have hchanged : (decide (b.latched ≠ a.latched) || decide (c.latched ≠ b.latched)) =
      decide (c.latched ≠ a.latched) := by
    by_cases hba : b.latched = a.latched
    · simp [hba]
    · have hca : ¬ c.latched = a.latched := fun h => hba (hback h)
      simp [hba, hca]
  rw [hbc.owed, hab.owed, ← hchanged, Bool.or_assoc]

theorem Alerts.Latched.count (m : Image) (c : DefectClass) (a : Alerts) : Alerts.Latched a (a.count m c) :=
  have h := Alerts.Latched.latchIf { a with counters := tabulate 4 (fun i =>
      if m.selects i c then a.counters[i].increment else a.counters[i]) }
    ((List.finRange 4).any (fun i => m.selects i c && decide (top 16 ≤ a.counters[i].count + 1))) .counterFull
  ⟨h.grows, h.owed⟩

theorem Alerts.Latched.report (m : Image) (c : DefectClass) (a : Alerts) : Alerts.Latched a (a.report m c) := by
  unfold Alerts.report
  split
  · exact (Alerts.Latched.count m c a).trans (.latch _ _)
  · exact .count m c a

/-! ### Selects and conditions -/

theorem Image.selects_iff (m : Image) (i : Fin 4) (c : DefectClass) :
    m.selects i c = true ↔ m.firstClass i = c.code ∨ m.secondClass i = c.code := by
  simp [Image.selects]

theorem Image.selectsBoth_holding (m : Image) : m.selectsBoth .holding = true ↔ (m.get 17).toNat % 4 = 2 := by
  simp [Image.selectsBoth, Image.holdEdgeSelect, bits]

theorem Image.selectsBoth_spilling (m : Image) : m.selectsBoth .spilling = true ↔ (m.get 17).toNat / 4 % 4 = 2 := by
  simp [Image.selectsBoth, Image.spillEdgeSelect, bits]

theorem Image.selectsBoth_anyStale (m : Image) : m.selectsBoth .anyStale = true ↔ (m.get 17).toNat / 16 % 4 = 2 := by
  simp [Image.selectsBoth, Image.staleEdgeSelect, bits]

/-- A word that is not zero has a bit. -/
theorem ne_zero_iff_exists_bit {n : Nat} (v : BitVec n) : v ≠ 0 ↔ ∃ k, k < n ∧ v.getLsbD k = true := by
  constructor
  · intro hne
    by_contra hnone
    refine hne (BitVec.eq_of_getLsbD_eq fun k hk => ?_)
    rw [Bool.eq_false_iff.mpr fun hbit => hnone ⟨k, hk, hbit⟩]
    exact BitVec.getLsbD_zero.symm
  · rintro ⟨k, -, hbit⟩ rfl
    exact Bool.false_ne_true (BitVec.getLsbD_zero.symm.trans hbit)

theorem State.alertOutput_iff (s : State) : s.alertOutput = true ↔ s.inReset = false ∧
    ∃ k, k < 22 ∧ s.alerts.latched.getLsbD k = true ∧ (s.cfg.get 16).getLsbD k = false := by
  rw [State.alertOutput, Bool.and_eq_true, Bool.not_eq_true', bne_iff_ne, ne_zero_iff_exists_bit]
  refine and_congr_right fun _ => exists_congr fun k => and_congr_right fun hk => ?_
  simp [Image.alertMask, hk]

/-- COUNTER_FULL after a report. -/
theorem Alerts.has_report_iff (m : Image) (c : DefectClass) (a : Alerts) (x : AlertBit) :
    (a.report m c).has x = true ↔ a.has x = true ∨ c.bit = some x ∨ (x = .counterFull ∧
      ∃ i : Fin 4, (m.firstClass i = c.code ∨ m.secondClass i = c.code) ∧ 65535 ≤ (a.counters[i]).count + 1) := by
  rw [Alerts.has_report]
  simp only [Bool.or_eq_true, Bool.and_eq_true, decide_eq_true_eq, List.any_eq_true, List.mem_finRange, true_and,
    Image.selects_iff, and_comm (b := x = AlertBit.counterFull)]
  rfl

/-- Settles O53: encodings, the report, the output, the edges. -/
theorem reportsLatchCountAndDriveAlert : Obligations.ReportsLatchCountAndDriveAlert := by
  unfold Obligations.ReportsLatchCountAndDriveAlert
  refine ⟨⟨rfl, rfl, rfl, rfl, fun m => ⟨m.selectsBoth_holding, m.selectsBoth_spilling, m.selectsBoth_anyStale⟩,
    fun x a => ⟨rfl, rfl, Alerts.latch_eq x a⟩, Channels.anyStale_iff⟩, fun m c a => ?report, State.alertOutput_iff,
    fun m c a => ?edge⟩
  case report =>
    intro b names
    refine ⟨fun i => ⟨fun hnames => ?_, fun hnames => ?_⟩, Alerts.has_report_iff m c a,
      (Alerts.Latched.report m c a).owed, Alerts.report_frame m c a⟩
    · exact (Alerts.report_counters m c a i).trans (if_pos ((m.selects_iff i c).mpr hnames))
    · exact (Alerts.report_counters m c a i).trans (if_neg fun h => hnames ((m.selects_iff i c).mp h))
  case edge =>
    intro owing
    refine ⟨rfl, fun hboth => ?_, fun hone => ?_, Alerts.has_latch_self _ _, Alerts.latch_realTime _ _,
      Alerts.latchIf_realTime _ _ _, fun x hx => ⟨?_, ?_⟩, fun before after => ?_⟩
    · rw [Alerts.fall, hboth]
      rfl
    · rw [Alerts.fall, hone]
      rfl
    · rw [Alerts.has_rise, decide_eq_false hx, Bool.or_false]
    · rw [Alerts.has_fall, decide_eq_false hx, Bool.and_false, Bool.or_false]
    · cases before <;> cases after <;> rfl

end Sys2Proof.Machine
end

section
/-! SUPPORT. Mirror writes: their answers, and the words of each group (R169 to R173, R179, R186). -/

namespace Sys2Proof.Machine

/-! ### The answer to a mirror write (R171, R172) -/

theorem groupOrder_first (o : Owed) (h : o.latched = true) : groupOrder.find? o.has = some .latched := by
  simp [groupOrder, Owed.has, h]

/-- A latch of a bit that is set changes nothing. -/
theorem Alerts.latch_of_has {a : Alerts} {b : AlertBit} (h : a.has b = true) : a.latch b = a := if_pos h

theorem Alerts.latch_owed_of_clear {a : Alerts} {b : AlertBit} (h : a.has b = false) :
    (a.latch b).owed.latched = true := by
  rw [Alerts.latch_eq, h]
  exact Bool.or_true _

theorem exec_mirrorWriteResponse {s : State} {g : Group} {txn : Txn} (hsteady : s.steady = true)
    (hport : s.pass.port = .internal (.mirror g) txn) (answer : Answer) :
    exec (.mirrorWriteResponse answer) s = .next (s.answerMirror answer).requestMirror := by
  refine stepWhen_can (State.answerMirror answer) s ?_
  rw [hsteady, hport]
  rfl

theorem State.answerMirror_error (s : State) : s.answerMirror .error = { s with
    pass := { s.pass with port := .free },
    alerts := { s.alerts.latch .memoryFault with mirror := none } } := by
  simp only [State.answerMirror, State.latch, State.freePort, Alerts.latch_eq]
  rfl

theorem State.answerMirror_none (answer : Answer) (s : State) : (s.answerMirror answer).alerts.mirror = none := by
  cases answer with
  | ok => rfl
  | error => exact Alerts.latch_mirror _ _

/-- The group requested after the answer: the first owed one, and none while FETCHING. -/
theorem State.answerMirror_requests (answer : Answer) (s : State) :
    (s.answerMirror answer).requestMirror.alerts.mirror =
      if s.setup.part = .fetching then none else groupOrder.find? (s.answerMirror answer).alerts.owed.has := by
  rw [State.requestMirror_of_none (State.answerMirror_none answer s)]
  cases answer <;> rfl

/-! ### The words of the groups (section 10.5) -/

/-- The real-time word's layout, bit by bit. -/
theorem realTimeBits : ∀ (a b c d : Bool) (e : Fin 4),
    let w : Word := BitVec.ofNat 32 (a.toNat + 2 * b.toNat + 4 * c.toNat + 8 * d.toNat + 256 * e.val)
    w.getLsbD 0 = a ∧ w.getLsbD 1 = b ∧ w.getLsbD 2 = c ∧ w.getLsbD 3 = d ∧
      (∀ k : Fin 8, 4 ≤ k.val → w.getLsbD k = false) ∧ w.toNat / 256 = e := by
  decide

theorem Part.code_lt (p : Part) : p.code < 4 := by cases p <;> simp [Part.code]

theorem Part.isApplying_iff (p : Part) : p.isApplying = true ↔ ∃ q, p = .applying q := by
  cases p <;> simp [Part.isApplying]

theorem State.reportedOverrun_eq (s : State) (n : Fin 16) :
    s.reportedOverrun n = if s.cfg.kind n = .none then 0 else (s.writer.rings[n]).overrun := by
  rw [State.reportedOverrun]
  by_cases h : s.cfg.kind n = .none
  · rw [if_pos h, if_neg (by simp [Image.ringInForce, h])]
  · rw [if_neg h, if_pos ((s.cfg.ringInForce_iff n).mpr h)]

/-- Settles O54: the two answers, then group by group. -/
theorem mirrorAnswersRequestTheNextOwedGroup : Obligations.MirrorAnswersRequestTheNextOwedGroup := by
  unfold Obligations.MirrorAnswersRequestTheNextOwedGroup
  refine ⟨fun s g txn hsteady hport => ⟨?ok, ?error⟩, fun s => ⟨?latched, ?realTime⟩, ?words⟩
  case ok =>
    refine ⟨(s.answerMirror .ok).requestMirror.alerts.mirror, ?_, fun hpart => ?_, fun hpart => ?_⟩
    · exact (exec_mirrorWriteResponse hsteady hport .ok).trans (congrArg Host.Outcome.next (requestMirror_eq _))
    · exact (s.answerMirror_requests .ok).trans (if_neg hpart)
    · exact (s.answerMirror_requests .ok).trans (if_pos hpart)
  case error =>
    have hform := requestMirror_eq (s.answerMirror .error)
    refine ⟨(s.answerMirror .error).requestMirror.alerts.mirror, ?_, fun hpart hclear => ?_, fun hpart hset => ?_⟩
    · rw [exec_mirrorWriteResponse hsteady hport .error, hform]
      simp only [State.answerMirror_error]
    · refine (s.answerMirror_requests .error).trans ((if_neg hpart).trans ?_)
      exact groupOrder_first _ (Alerts.latch_owed_of_clear (a := { s.alerts with mirror := none }) hclear)
    · refine (s.answerMirror_requests .error).trans ((if_neg hpart).trans ?_)
      have hsame : (s.answerMirror .error).alerts.owed = s.alerts.owed :=
        (congrArg Alerts.owed (Alerts.latch_of_has (a := { s.alerts with mirror := none }) hset) :)
      rw [hsame]
      rfl
  case latched =>
    refine ⟨s.alerts.latched.zeroExtend 32, rfl, fun k hk => ?_⟩
    simp [hk]
  case realTime =>
    obtain ⟨hholding, hspilling, hstale, happlying, hzero, hpart⟩ := realTimeBits s.pass.heldWrite.isSome
      s.pass.spilling s.channels.anyStale s.setup.part.isApplying ⟨s.setup.part.code, s.setup.part.code_lt⟩
    refine ⟨s.realTimeWord, rfl, hholding, hspilling, ?_, ?_, fun k hfour hk => hzero ⟨k, hk⟩ hfour, ?_⟩
    · rw [← Channels.anyStale_iff]
      exact Bool.eq_iff_iff.mp hstale
    · rw [← Part.isApplying_iff]
      exact Bool.eq_iff_iff.mp happlying
    · refine hpart.trans ?_
      cases s.setup.part <;> rfl
  case words =>
    intro s w overrun
    refine ⟨rfl, ?_, rfl, ?_, ?_⟩
    · show [_, word s.alerts.commandResult.result.code] = _
      cases s.alerts.commandResult.result <;> rfl
    · show [_, _, _, _, _, word s.tally.lost.reason.code] = _
      cases s.tally.lost.reason <;> rfl
    · have hoverrun (k : Nat) (hk : k < 16) : s.reportedOverrun (lineOf k) = overrun k := by
        have hline : lineOf k = ⟨k, hk⟩ := Fin.ext (Nat.mod_eq_of_lt hk)
        rw [hline, s.reportedOverrun_eq]
        simp only [overrun, hk, dif_pos]
        rfl
      have hword (j : Nat) (hj : 2 * j + 1 < 16) :
          s.overrunWord j = w (overrun (2 * j) + 65536 * overrun (2 * j + 1)) := by
        rw [State.overrunWord, hoverrun _ (Nat.lt_of_succ_lt hj), hoverrun _ hj]
        rfl
      show [s.intake.accepted, s.lines.clock, s.overrunWord 0, s.overrunWord 1, s.overrunWord 2, s.overrunWord 3,
        s.overrunWord 4, s.overrunWord 5, s.overrunWord 6, s.overrunWord 7] = _
      rw [hword 0 (by decide), hword 1 (by decide), hword 2 (by decide), hword 3 (by decide), hword 4 (by decide),
        hword 5 (by decide), hword 6 (by decide), hword 7 (by decide)]

end Sys2Proof.Machine
end

section
/-! SUPPORT. The apply: its validation, the quiesce conditions and the forced close (R104, R150, R151, R156 to
R158). -/

namespace Sys2Proof.Machine

/-! ### The end of an apply (R150, R156) -/

/-- A command that is dealt with leaves the Setup Unit as it is, but for the waiting command. -/
theorem State.dealWith_setup (word arg : Word) (s : State) :
    ∃ waiting, (s.dealWith word arg).setup = { s.setup with waiting := waiting } := by
  unfold State.dealWith
  split
  · exact ⟨_, rfl⟩
  · split <;> exact ⟨_, rfl⟩
  · exact ⟨_, rfl⟩
  · split
    · exact ⟨_, rfl⟩
    · exact ⟨s.setup.waiting, State.command_setup _ _ _⟩

theorem State.afterApply_resting {u : State} (hwaiting : u.setup.waiting = none)
    (hpending : u.setup.pendingApply = false) : u.afterApply = u := by
  simp [State.afterApply, hwaiting, hpending]

theorem State.afterApply_pending {u : State} (hwaiting : u.setup.waiting = none)
    (hpending : u.setup.pendingApply = true) : u.afterApply = { u with
      setup := { u.setup with
        pendingApply := false, part := .applying .validate, candidate := some (u.setup.shadow.below 1352) },
      alerts := { u.alerts with owed := { u.alerts.owed with realTime := true } } } := by
  simp only [State.afterApply, hwaiting, hpending, if_true]
  rfl

/-- The waiting command is dealt with first; it leaves the pending flag and the shadow as they are. -/
theorem State.afterApply_waiting {u v : State} {w arg : Word} (hwaiting : u.setup.waiting = some (w, arg))
    (hv : State.dealWith w arg { u with setup := { u.setup with waiting := none } } = v) :
    u.afterApply = (if u.setup.pendingApply = true
      then State.startApply { v with setup := { v.setup with pendingApply := false } } else v) ∧
    v.setup.shadow = u.setup.shadow := by
  obtain ⟨waiting, hsetup⟩ := State.dealWith_setup w arg { u with setup := { u.setup with waiting := none } }
  rw [hv] at hsetup
  have hpending : v.setup.pendingApply = u.setup.pendingApply := (congrArg Setup.pendingApply hsetup :)
  refine ⟨?_, (congrArg Setup.shadow hsetup :)⟩
  rw [← hpending, ← hv]
  simp only [State.afterApply, hwaiting]

theorem State.afterApply_command {u : State} {w arg : Word} (hwaiting : u.setup.waiting = some (w, arg))
    (hpending : u.setup.pendingApply = false) :
    u.afterApply = State.dealWith w arg { u with setup := { u.setup with waiting := none } } := by
  rw [(State.afterApply_waiting hwaiting rfl).1, hpending, if_neg Bool.false_ne_true]

theorem State.afterApply_both {u : State} {w arg : Word} (hwaiting : u.setup.waiting = some (w, arg))
    (hpending : u.setup.pendingApply = true) : u.afterApply =
      (let v := State.dealWith w arg { u with setup := { u.setup with waiting := none } }
       { v with
         setup := { v.setup with
           pendingApply := false, part := .applying .validate, candidate := some (u.setup.shadow.below 1352) },
         alerts := { v.alerts with owed := { v.alerts.owed with realTime := true } } }) := by
  obtain ⟨hafter, hshadow⟩ := State.afterApply_waiting hwaiting rfl
  rw [hafter, if_pos hpending, ← hshadow]
  rfl

/-! ### The validation (R151, R156) -/

theorem State.candidateImage_of_some {s : State} {new : Image} (h : s.setup.candidate = some new) :
    s.candidateImage = new := by
  rw [State.candidateImage, h, Option.getD_some]

theorem State.completeValidation_valid {s : State} {new : Image} (h : s.setup.candidate = some new)
    (hvalid : new.validate s.setup.blockAddress = none) : s.completeValidation = { s with
      setup := { s.setup with part := .applying .quiesce }, channels := { s.channels with pause := true } } := by
  simp only [State.completeValidation, h, Option.getD_some, hvalid]

/-- The state after a rejected apply, before the waiting command and the pending apply. -/
theorem State.completeValidation_rejected {s : State} {new : Image} {r : Reject} (h : s.setup.candidate = some new)
    (hreject : new.validate s.setup.blockAddress = some r) : s.completeValidation = State.afterApply { s with
      setup := { s.setup with part := if s.setup.active.isSome then .active else .unset, candidate := none },
      alerts := { s.alerts with
        latched := s.alerts.latched ||| AlertBit.setupRejected.mask,
        applyResult := { generation := new.get 1, code := r.code, index := r.index },
        owed := { s.alerts.owed with
          applyResult := true, realTime := true,
          latched := s.alerts.owed.latched || !s.alerts.has .setupRejected } } } := by
  have hgeneration : s.setup.candidateGeneration = new.get 1 := by
    rw [Setup.candidateGeneration, h, Option.getD_some]
    rfl
  simp only [State.completeValidation, h, Option.getD_some, hreject, State.rejectApply, hgeneration, Alerts.latch_eq]
  rfl

/-! ### Rings and lines that change (R104, R119, R157) -/

theorem ringRestarts_iff (old new : Image) (n : Fin 16) : ringRestarts old new n = true ↔ new.kind n ≠ .none ∧
    (old.kind n = .none ∨ old.ringBase n ≠ new.ringBase n ∨ old.ringSize n ≠ new.ringSize n) := by
  simp [ringRestarts, or_assoc]

theorem leavingRing_iff (old new : Image) (n : Fin 16) : leavingRing old new n = true ↔ old.kind n ≠ .none ∧
    (new.kind n = .none ∨ old.ringBase n ≠ new.ringBase n ∨ old.ringSize n ≠ new.ringSize n) := by
  simp [leavingRing, or_assoc]

theorem Image.sameGroupTiming_eq_false_iff (old new : Image) (n : Fin 16) : old.sameGroupTiming new n = false ↔
    (old.isHead n = true ∨ new.isHead n = true) ∧
      (old.binLength n ≠ new.binLength n ∨ old.epochLength n ≠ new.epochLength n) := by
  simp [Image.sameGroupTiming, imp_iff_not_or]

theorem lineChanges_iff (old new : Image) (n : Fin 16) : lineChanges old new n = true ↔
    old.kind n ≠ new.kind n ∨ old.parent n ≠ new.parent n ∨ old.ringBase n ≠ new.ringBase n ∨
    old.ringSize n ≠ new.ringSize n ∨
    ((old.isHead n = true ∨ new.isHead n = true) ∧
      (old.binLength n ≠ new.binLength n ∨ old.epochLength n ≠ new.epochLength n)) ∨
    ((old.kind n = .furnace ∨ new.kind n = .furnace) ∧ old.children n ≠ new.children n) := by
  simp only [lineChanges, Bool.or_eq_true, bne_iff_ne, Bool.not_eq_true', old.sameGroupTiming_eq_false_iff,
    Bool.and_eq_true, beq_iff_eq, or_assoc]

/-! ### The quiesce conditions (R157) -/

theorem State.ringsClear_iff {s : State} {new : Image} (h : s.setup.candidate = some new) : s.ringsClear = true ↔
    (∀ r ∈ s.writer.queue, leavingRing s.cfg new r.line = false ∧ ringRestarts s.cfg new r.line = false) ∧
    ∀ k ∈ s.lines.handOver, leavingRing s.cfg new k.2 = false := by
  simp only [State.ringsClear, State.candidateImage_of_some h, Bool.and_eq_true, List.all_eq_true, Bool.not_eq_true',
    Bool.or_eq_false_iff]

/-- A record or a snapshot of a ring that leaves or restarts keeps the rings from being clear. -/
theorem State.ringsClear_eq_false {s : State} {new : Image} (h : s.setup.candidate = some new)
    (hheld : (∃ r ∈ s.writer.queue, leavingRing s.cfg new r.line = true ∨ ringRestarts s.cfg new r.line = true) ∨
      ∃ k ∈ s.lines.handOver, leavingRing s.cfg new k.2 = true) : s.ringsClear = false := by
  rw [← Bool.not_eq_true, State.ringsClear_iff h]
  rintro ⟨hqueue, hlist⟩
  rcases hheld with ⟨r, hmem, hleaving | hrestarts⟩ | ⟨k, hmem, hleaving⟩
  · exact Bool.false_ne_true ((hqueue r hmem).1.symm.trans hleaving)
  · exact Bool.false_ne_true ((hqueue r hmem).2.symm.trans hrestarts)
  · exact Bool.false_ne_true ((hlist k hmem).symm.trans hleaving)

theorem State.quiesced_iff (s : State) : s.quiesced = true ↔ s.channels.inHand = none ∧ s.ringsClear = true ∧
    ((∃ new old, s.setup.candidate = some new ∧ s.setup.active = some old ∧ new.tallyBase ≠ old.tallyBase) →
      s.tally.queue = [] ∧ s.tally.reservation = none) := by
  simp only [State.quiesced, Bool.and_eq_true, Option.isNone_iff_eq_none, Bool.or_eq_true, Bool.not_eq_true',
    List.isEmpty_iff, and_assoc, ← s.baseChanges_iff, ← Bool.not_eq_true, ← imp_iff_not_or]

/-! ### The forced close (R104, R158) -/

/-- The forced close, its lines and heads named by propositions. -/
theorem Books.forcedClose_eq (old new : Image) (x : Books) : x.forcedClose old new =
    ((List.finRange 16).filter (fun h =>
        decide (old.isHead h = true ∧ ∃ n ∈ old.members h, lineChanges old new n = true))).foldl
      (fun x h => x.closeGroup old h true)
      (((List.finRange 16).filter (fun n => decide (old.kind n = .forming ∧ new.kind n ≠ .forming))).foldl
        (fun x n => x.closeJob n 0) x) := by
  have hjobs : (fun n => old.kind n == .forming && new.kind n != .forming) =
      fun n => decide (old.kind n = .forming ∧ new.kind n ≠ .forming) := by
    funext n
    rw [Bool.decide_and, decide_not]
    rfl
  have hheads : (fun h => old.isHead h && (old.members h).any (lineChanges old new)) =
      fun h => decide (old.isHead h = true ∧ ∃ n ∈ old.members h, lineChanges old new n = true) := by
    funext h
    exact Bool.eq_iff_iff.mpr (by simp)
  rw [Books.forcedClose, hjobs, hheads]
  rfl

theorem State.forceClose_eq {s : State} {new : Image} (h : s.setup.candidate = some new) : s.forceClose =
    (let x := s.books.forcedClose s.cfg new
     { s with
       channels := x.channels, lines := x.lines, tally := x.ledger.tally, alerts := x.ledger.alerts,
       setup := { s.setup with part := .applying .drain } }) := by
  rw [State.forceClose, State.candidateImage_of_some h]
  rfl

/-- Settles O50: the validation's two ends, the end of the apply, and the quiesce phase. -/
theorem validationAndQuiesceLeadToTheForcedClose : Obligations.ValidationAndQuiesceLeadToTheForcedClose := by
  unfold Obligations.ValidationAndQuiesceLeadToTheForcedClose
  refine ⟨⟨fun s new hsteady hpart hcloses hnew => ?validation, fun u => ?after⟩, ?met, ?rings, ?busy,
    fun old new n => ⟨ringRestarts_iff old new n, leavingRing_iff old new n, lineChanges_iff old new n⟩⟩
  case validation =>
    have hcan : (s.steady && s.setup.part == .applying .validate && s.closesTaken) = true := by
      rw [hsteady, hpart, hcloses]
      rfl
    exact ⟨fun hvalid => stepWhen_of_eq hcan (State.completeValidation_valid hnew hvalid),
      fun r hreject => stepWhen_of_eq hcan (State.completeValidation_rejected hnew hreject)⟩
  case after =>
    exact ⟨State.afterApply_resting, State.afterApply_pending, fun _ _ => State.afterApply_command,
      fun _ _ => State.afterApply_both⟩
  case met =>
    intro s new hsteady hpart hcloses hnew hhand hqueue hlist hbase
    have hquiesced : s.quiesced = true := by
      refine s.quiesced_iff.mpr ⟨hhand, (State.ringsClear_iff hnew).mpr ⟨hqueue, hlist⟩, ?_⟩
      rintro ⟨new', old, hnew', hold, hchanges⟩
      obtain rfl : new = new' := Option.some.inj (hnew.symm.trans hnew')
      exact hbase ⟨old, hold, hchanges⟩
    have hcan : (s.steady && s.setup.part == .applying .quiesce && s.closesTaken && s.quiesced) = true := by
      rw [hsteady, hpart, hcloses, hquiesced]
      rfl
    have hforced := State.forceClose_eq hnew
    rw [Books.forcedClose_eq] at hforced
    exact stepWhen_of_eq hcan hforced
  case rings =>
    intro s new hnew hheld
    have hrings := State.ringsClear_eq_false hnew hheld
    have hquiesced : s.quiesced = false := by
      rw [State.quiesced, hrings, Bool.and_false, Bool.false_and]
    exact ⟨stepWhen_cannot _ s (by rw [hquiesced, Bool.and_false]),
      stepWhen_cannot _ s (by rw [hrings, Bool.and_false])⟩
  case busy =>
    intro s old new hnew hold hbusy
    have hquiesced : s.quiesced = false := by
      rw [← Bool.not_eq_true, s.quiesced_iff]
      rintro ⟨hhand, -, hbase⟩
      rcases hbusy with hsome | ⟨hchanges, hbusy⟩
      · rw [hhand] at hsome
        exact Bool.false_ne_true hsome
      · obtain ⟨hqueue, hreservation⟩ := hbase ⟨new, old, hnew, hold, hchanges⟩
        exact hbusy.elim (· hqueue) (· hreservation)
    exact stepWhen_cannot _ s (by rw [hquiesced, Bool.and_false])

end Sys2Proof.Machine
end

section
/-! SUPPORT. The installation of a setup, unit by unit (R36, R40, R78, R105, R119, R120, R159, R181). -/

namespace Sys2Proof.Machine

/-! ### The marks and the waiting burst (R7, R36) -/

/-- The new marks drop a standing hold request. -/
def State.dropsAt (new : Image) (s : State) : Bool :=
  s.intake.holdRequest && decide (s.intake.queue.length < new.highWater) &&
    decide (s.intake.queue.length ≤ new.lowWater)

theorem State.dropsAt_iff (new : Image) (s : State) : s.dropsAt new = true ↔ s.intake.holdRequest = true ∧
    s.intake.queue.length < new.highWater ∧ s.intake.queue.length ≤ new.lowWater := by
  simp only [State.dropsAt, Bool.and_eq_true, decide_eq_true_eq, and_assoc]

/-- A burst waits outside every window of the new setup. -/
def State.waitsOutside (new : Image) (s : State) : Bool :=
  s.pass.heldWrite.any (fun b => (new.windowAt b.1).isNone)

theorem State.waitsOutside_iff (new : Image) (s : State) :
    s.waitsOutside new = true ↔ ∃ a ws, s.pass.heldWrite = some (a, ws) ∧ new.windowAt a = none := by
  unfold State.waitsOutside
  rcases s.pass.heldWrite with _ | ⟨a, ws⟩ <;> simp

theorem State.retestHold_form (s : State) : s.retestHold = { s with
    pass := { s.pass with releaseDue := s.pass.releaseDue || s.waitsOutside s.cfg } } := by
  unfold State.retestHold State.waitsOutside
  cases hheld : s.pass.heldWrite with
  | none => simp
  | some b =>
    cases hwindow : (s.cfg.windowAt b.1).isNone <;> simp [hwindow]

/-- The hold request under marks. -/
def State.requestAt (new : Image) (s : State) : Bool :=
  decide (new.highWater ≤ s.intake.queue.length) ||
    (s.intake.holdRequest && decide (new.lowWater < s.intake.queue.length))

theorem State.requestAt_iff (new : Image) (s : State) : s.requestAt new = true ↔
    new.highWater ≤ s.intake.queue.length ∨
      (s.intake.holdRequest = true ∧ new.lowWater < s.intake.queue.length) := by
  simp only [State.requestAt, Bool.or_eq_true, Bool.and_eq_true, decide_eq_true_eq]

theorem State.testMarks_form (s : State) : s.testMarks = { s with
    intake := { s.intake with holdRequest := s.requestAt s.cfg },
    pass := { s.pass with
      spilling := s.pass.spilling && !s.dropsAt s.cfg,
      releaseDue := s.pass.releaseDue || (s.dropsAt s.cfg && !s.pass.spilling && s.pass.heldWrite.isSome) },
    alerts := if s.dropsAt s.cfg = true ∧ s.pass.spilling = true then s.alerts.fall s.cfg .spilling
      else s.alerts } := by
  unfold State.testMarks State.requestAt State.dropsAt
  by_cases hhigh : s.cfg.highWater ≤ s.intake.queue.length
  · simp [hhigh, Nat.not_lt.mpr hhigh]
  · have hbelow : s.intake.queue.length < s.cfg.highWater := Nat.lt_of_not_le hhigh
    by_cases hlow : s.intake.queue.length ≤ s.cfg.lowWater
    · rw [if_neg hhigh, if_pos hlow, State.dropRequest_form]
      simp [hhigh, hbelow, hlow]
    · simp [hhigh, hlow, Nat.lt_of_not_le hlow]

/-! ### The units together (R159) -/

/-- The alerts after an installation: SPILL_EDGE by the drop, STALE_EDGE by the new channel table. -/
def State.installedAlerts (old new : Image) (had : Bool) (s : State) : Alerts :=
  (if s.dropsAt new = true ∧ s.pass.spilling = true then (s.alerts.installed old new had).fall new .spilling
    else s.alerts.installed old new had).follow new .anyStale
    s.channels.anyStale { s.channels with meters := s.channels.installed old new : Channels }.anyStale

/-- What the installation makes of each unit, the hold request and spill by the new marks. -/
theorem State.installUnits_form (old new : Image) (had : Bool) (s : State) : s.installUnits old new had = { s with
    setup := { s.setup with active := some new, candidate := none, part := .active },
    intake := { s.intake.installed old new had with holdRequest := s.requestAt new },
    pass := { s.pass with
      spilling := s.pass.spilling && !s.dropsAt new,
      releaseDue := (s.pass.releaseDue || s.waitsOutside new) ||
        (s.dropsAt new && !s.pass.spilling && s.pass.heldWrite.isSome) },
    lines := s.lines.installed old new,
    writer := s.writer.installed old new,
    channels := { s.channels with pause := false, meters := s.channels.installed old new },
    alerts := s.installedAlerts old new had } := by
  unfold State.installUnits
  dsimp only
  rw [State.retestHold_form, State.testMarks_form]
  rfl

theorem State.grew_installedAlerts (old new : Image) (had : Bool) (s : State) :
    Alerts.Grew (s.alerts.installed old new had) (s.installedAlerts old new had) := by
  unfold State.installedAlerts
  refine .trans ?_ (Alerts.grew_follow _ _ _ _ _)
  split
  · exact Alerts.grew_fall _ _ _
  · exact .refl _

/-- The bits after an installation: the two edges. -/
theorem State.has_installedAlerts (old new : Image) (had : Bool) (s : State) (b : AlertBit) :
    (s.installedAlerts old new had).has b = ((s.alerts.has b ||
      (decide (s.dropsAt new = true ∧ s.pass.spilling = true) &&
        (new.selectsBoth .spilling && decide (b = .spillEdge)))) ||
      (((!s.channels.anyStale && { s.channels with meters := s.channels.installed old new : Channels }.anyStale) ||
        (s.channels.anyStale && !{ s.channels with meters := s.channels.installed old new : Channels }.anyStale &&
          new.selectsBoth .anyStale)) && decide (b = .staleEdge))) := by
  rw [State.installedAlerts, Alerts.has_follow]
  congr 1
  by_cases hfall : s.dropsAt new = true ∧ s.pass.spilling = true
  · rw [if_pos hfall, Alerts.has_fall, decide_eq_true hfall, Bool.true_and]
    rfl
  · rw [if_neg hfall, decide_eq_false hfall, Bool.false_and, Bool.or_false]
    rfl

/-! ### Each unit -/

theorem Intake.installed_window (old new : Image) (had : Bool) (i : Intake) (w : Fin 4) :
    (i.installed old new had).windows[w] =
      if had = true ∧ old.window w = new.window w then i.windows[w]
      else { partialRecord := none, timer := none, inject := false } := by
  refine (tabulate_get _ _ w).trans ?_
  simp only [Bool.and_eq_true, beq_iff_eq]
  rfl

theorem LineUnit.installed_line (old new : Image) (u : LineUnit) (n : Fin 16) :
    (u.installed old new).lines[n] = (u.lines[n]).installed (old.kind n) (new.kind n) u.clock.toNat :=
  tabulate_get _ _ n

theorem Line.installed_same {old new : LineKind} (h : old = new) (now : Nat) (l : Line) : l.installed old new now = l :=
  if_pos h

/-- A line whose kind changes, cleared but for its snapshots, and its residues between FURNACE and FORMING. -/
theorem Line.installed_changed {old new : LineKind} (h : old ≠ new) (now : Nat) (l : Line) :
    l.installed old new now = {
      state := if new = .none then .idle else .running, changeoverPending := false, timer := none,
      jobCode := 0, unitWeight := 0, bin := .opened now .clear, closing := l.closing, epoch := .opened now,
      epochSnap := l.epochSnap, job := .opened now, jobSnap := l.jobSnap,
      pulledResidue := if old = .none ∨ new = .none then 0 else l.pulledResidue,
      packedResidue := if old = .none ∨ new = .none then 0 else l.packedResidue, summarySaturation := false } := by
  by_cases hnew : new = .none
  · rw [Line.installed, if_neg h, if_pos hnew]
    simp [hnew, Line.vacated]
  · simp [Line.installed, h, hnew, Line.founded]

theorem groupKept_iff (old new : Image) (h : Fin 16) : groupKept old new h = true ↔
    old.isHead h = true ∧ ∀ n ∈ new.members h, lineChanges old new n = false := by
  simp [groupKept]

theorem LineUnit.installed_bound (old new : Image) (u : LineUnit) (h : Fin 16) : (u.installed old new).bounds[h] =
    if new.isHead h = true then
      (if old.isHead h = true ∧ ∀ n ∈ new.members h, lineChanges old new n = false then u.bounds[h]
        else some (new.boundAt h u.clock.toNat))
    else none := by
  refine (tabulate_get _ _ h).trans ?_
  simp only [groupKept_iff]

theorem Writer.installed_ring (old new : Image) (w : Writer) (n : Fin 16) : (w.installed old new).rings[n] =
    if new.kind n = .none then
      { producer := 0, shadow := 0, overrun := 0, pendingLost := 0, reserved := false, initOwed := false }
    else if old.kind n = .none ∨ old.ringBase n ≠ new.ringBase n ∨ old.ringSize n ≠ new.ringSize n then
      { producer := 0, shadow := 0, overrun := 0, pendingLost := 0, reserved := false, initOwed := true }
    else w.rings[n] := by
  refine (tabulate_get _ _ n).trans ?_
  unfold Ring.installed
  by_cases hnone : new.kind n = .none
  · rw [if_pos hnone, if_pos hnone]
    rfl
  · rw [if_neg hnone, if_neg hnone]
    refine if_congr ((ringRestarts_iff old new n).trans (and_iff_right hnone)) rfl rfl

theorem sameSelect_iff (old new : Image) (i : Fin 4) : sameSelect old new i = true ↔
    (old.firstClass i = new.firstClass i ∧ old.secondClass i = new.secondClass i) ∨
      (old.firstClass i = new.secondClass i ∧ old.secondClass i = new.firstClass i) := by
  simp [sameSelect]

theorem Alerts.installed_counter (old new : Image) (had : Bool) (a : Alerts) (i : Fin 4) :
    (a.installed old new had).counters[i] = if had = true ∧ sameSelect old new i = true then a.counters[i]
      else { a.counters[i] with count := 0 } := by
  refine (tabulate_get _ _ i).trans ?_
  simp only [Bool.and_eq_true]

theorem Alerts.installed_reportTimer (old new : Image) (had : Bool) (a : Alerts) :
    (a.installed old new had).reportTimer =
      if had = true ∧ old.reportInterval = new.reportInterval then a.reportTimer else some new.reportInterval := by
  simp only [Alerts.installed, Bool.and_eq_true, beq_iff_eq]

theorem sameIdentity_iff (c d : ChannelSetup) : sameIdentity c d = true ↔
    c.channel = d.channel ∧ c.line = d.line ∧ c.kind = d.kind ∧ c.width = d.width ∧
      (c.kind = .energy ∨ c.role = d.role) := by
  simp [sameIdentity, and_assoc]

/-- The table of R78 as one test after the other. -/
theorem Meter.installed_eq (c d : ChannelSetup) (m : Meter) : m.installed c d =
    if c.enabled = true ∧ d.enabled = false then { m with
      candidate := none, suspectCount := none, lastSequence := none, gap := 0, timer := none, staleInBin := false,
      state := .retired }
    else if d.enabled = true ∧ ¬(c.enabled = true ∧ sameIdentity c d = true) then { m with
      candidate := none, suspectCount := none, lastSequence := none, gap := 0, timer := none, staleInBin := false,
      state := .unseen, residue := 0 }
    else m := by
  unfold Meter.installed
  cases c.enabled <;> cases d.enabled
  · simp
  · simp [Meter.fresh, Meter.unseen]
  · simp [Meter.retire, Meter.unseen]
  · cases sameIdentity c d <;> simp [Meter.fresh, Meter.unseen]

theorem Channels.installed_meter (old new : Image) (c : Channels) (e : Fin 256) :
    (c.installed old new)[e] = (c.meters[e]).installed (old.channel e) (new.channel e) :=
  tabulate_get _ _ e

end Sys2Proof.Machine
end

section
/-! SUPPORT. The end of a fetch and the installation of an apply (R147, R159, R160, R189). -/

namespace Sys2Proof.Machine

/-! ### The installation of an apply (R159, R160) -/

/-- The setup `new` in force in the place of `old`, before the waiting command and the pending apply. -/
def State.inForceOf (old new : Image) (had : Bool) (s : State) : State :=
  (s.installUnits old new had).announceInstalled new

theorem State.install_eq {s : State} {new : Image} (h : s.setup.candidate = some new) :
    s.install = (s.inForceOf s.cfg new s.setup.active.isSome).afterApply := by
  rw [State.install, State.candidateImage_of_some h]
  rfl

/-- The state in force, written out. -/
theorem State.inForceOf_form (old new : Image) (had : Bool) (s : State) : ∃ al : Alerts,
    s.inForceOf old new had = { s with
    setup := { s.setup with active := some new, candidate := none, part := .active },
    intake := { s.intake.installed old new had with holdRequest := s.requestAt new },
    pass := { s.pass with
      spilling := s.pass.spilling && !s.dropsAt new,
      releaseDue := (s.pass.releaseDue || s.waitsOutside new) ||
        (s.dropsAt new && !s.pass.spilling && s.pass.heldWrite.isSome) },
    lines := s.lines.installed old new,
    writer := s.writer.installed old new,
    channels := { s.channels with pause := false, meters := s.channels.installed old new },
    alerts := al } ∧
    al.applyResult = { generation := new.get 1, code := 0, index := 0 } ∧ al.owed.applyResult = true ∧
    al.owed.realTime = true ∧ al.counters = (s.alerts.installed old new had).counters ∧
    al.reportTimer = (s.alerts.installed old new had).reportTimer ∧
    (al.commandResult = s.alerts.commandResult ∧ al.readHold = s.alerts.readHold) ∧
    ∀ b, al.has b = ((s.installedAlerts old new had).has b || decide (b = .setupApplied)) := by
  have hgrew := State.grew_installedAlerts old new had s
  rw [State.inForceOf, State.installUnits_form]
  refine ⟨_, rfl, Alerts.latch_applyResult _ _, ?_, Alerts.latch_realTime _ _, ?_, ?_, ⟨?_, ?_⟩,
    fun b => Alerts.has_latch _ _ _⟩
  · rw [Alerts.latch_eq]
    rfl
  · exact (Alerts.latch_counters _ _).trans hgrew.counters
  · exact (Alerts.latch_reportTimer _ _).trans hgrew.reportTimer
  · exact (Alerts.latch_commandResult _ _).trans (congrArg Alerts.commandResult hgrew.frame :)
  · exact (Alerts.latch_readHold _ _).trans (congrArg Alerts.readHold hgrew.frame :)

/-- Spill goes on unless the new marks drop the request. -/
theorem State.spillsOn_iff (new : Image) (s : State) : (s.pass.spilling && !s.dropsAt new) = true ↔
    s.pass.spilling = true ∧ ¬ (s.intake.holdRequest = true ∧ s.intake.queue.length < new.highWater ∧
      s.intake.queue.length ≤ new.lowWater) := by
  rw [Bool.and_eq_true, Bool.not_eq_true', ← Bool.not_eq_true, s.dropsAt_iff new]

/-- A release is due as before, for a burst outside every window, or by the drop. -/
theorem State.releasesAt_iff (new : Image) (s : State) : ((s.pass.releaseDue || s.waitsOutside new) ||
      (s.dropsAt new && !s.pass.spilling && s.pass.heldWrite.isSome)) = true ↔
    s.pass.releaseDue = true ∨ (∃ a ws, s.pass.heldWrite = some (a, ws) ∧ new.windowAt a = none) ∨
      ((s.intake.holdRequest = true ∧ s.intake.queue.length < new.highWater ∧ s.intake.queue.length ≤ new.lowWater) ∧
        s.pass.spilling = false ∧ s.pass.heldWrite.isSome = true) := by
  simp only [Bool.or_eq_true, Bool.and_eq_true, Bool.not_eq_true', s.dropsAt_iff, s.waitsOutside_iff, or_assoc,
    and_assoc]

/-- Settles O51: the state in force unit by unit, then the end of the apply. -/
theorem installationPutsTheCandidateInForce : Obligations.InstallationPutsTheCandidateInForce := by
  unfold Obligations.InstallationPutsTheCandidateInForce
  intro s new hsteady hpart hcloses hnew hqueue hlist
  have hrings : s.ringsClear = true := (State.ringsClear_iff hnew).mpr ⟨hqueue, hlist⟩
  have hcan : (s.steady && s.setup.part == .applying .drain && s.closesTaken && s.ringsClear) = true := by
    rw [hsteady, hpart, hcloses, hrings]
    rfl
  obtain ⟨m, hexec⟩ := stepWhen_of_eq hcan (State.install_eq hnew)
  obtain ⟨al, hform, hresult, howed, hrealTime, hcounters, htimer, -, hhas⟩ :=
    s.inForceOf_form s.cfg new s.setup.active.isSome
  have hbits (b : AlertBit) := (hhas b).trans (congrArg (· || _) (State.has_installedAlerts _ _ _ s b))
  refine ⟨s.inForceOf s.cfg new s.setup.active.isSome, m, hexec, ?_⟩
  rw [hform]
  refine ⟨rfl, rfl, hresult, ?_, howed, hrealTime, rfl, rfl, rfl, rfl, rfl, rfl, rfl,
    fun i => Intake.installed_window _ _ _ _ i, fun n hkind => ?_, fun n hkind => ?_,
    fun h => LineUnit.installed_bound _ _ _ h, fun n => Writer.installed_ring _ _ _ n, fun e => ?meters, rfl, ?stale,
    fun b happlied hspill hstale => ?other, ?marks, fun i => ?counters, fun hactive hsame => ?_, fun hchanged => ?_,
    rfl, rfl⟩
  · rw [hhas, decide_eq_true rfl, Bool.or_true]
  · exact (LineUnit.installed_line _ _ _ n).trans (Line.installed_same hkind _ _)
  · exact (LineUnit.installed_line _ _ _ n).trans (Line.installed_changed hkind _ _)
  case meters =>
    intro c d meter same stopped
    refine (Channels.installed_meter _ _ _ e).trans ((Meter.installed_eq _ _ _).trans ?_)
    simp only [sameIdentity_iff]
    rfl
  case stale =>
    refine (Bool.eq_iff_iff.mp (hbits .staleEdge)).trans ?_
    simp only [Bool.or_eq_true, Bool.and_eq_true, Bool.not_eq_true', decide_eq_true_eq, reduceCtorEq, and_false,
      or_false, and_true, and_assoc]
    rfl
  case other =>
    refine (hbits b).trans ?_
    simp [happlied, hspill, hstale]
  case marks =>
    intro drops outside
    have hdrops : s.dropsAt new = true ↔ drops := s.dropsAt_iff new
    refine ⟨s.requestAt_iff new, rfl, s.spillsOn_iff new, ?_, s.releasesAt_iff new⟩
    refine (Bool.eq_iff_iff.mp (hbits .spillEdge)).trans ?_
    simp only [hdrops, Bool.or_eq_true, Bool.and_eq_true, decide_eq_true_eq, reduceCtorEq, and_false, or_false,
      and_true, and_assoc]
  case counters =>
    have hcounter : al.counters[i] = _ :=
      (congrArg (fun v : Vector Counter 4 => v[i]) hcounters).trans (Alerts.installed_counter _ _ _ _ i)
    simp only [sameSelect_iff] at hcounter
    rw [hcounter]
    split <;> exact ⟨rfl, rfl⟩
  · exact htimer.trans ((Alerts.installed_reportTimer _ _ _ _).trans (if_pos ⟨hactive, hsame⟩))
  · refine htimer.trans ((Alerts.installed_reportTimer _ _ _ _).trans (if_neg ?_))
    rintro ⟨hactive, hsame⟩
    rcases hchanged with hnone | hne
    · rw [hnone] at hactive
      exact Bool.false_ne_true hactive
    · exact hne hsame

/-! ### The end of a whole fetch (R147, R189) -/

/-- The state at the end of a whole fetch, before its groups are owed and a generation is tested. -/
def State.fetchEnded (new : Image) (s : State) : State :=
  match new.validate s.setup.blockAddress with
  | some r =>
    { s with
      setup := { s.setup with part := .unset, candidate := none },
      alerts := (s.alerts.giveApplyResult new.generation r.code r.index).latch .setupRejected }
  | none => s.inForceOf [] new false

theorem State.fetchEnded_rejected {s : State} {new : Image} {r : Reject}
    (h : new.validate s.setup.blockAddress = some r) : s.fetchEnded new = { s with
      setup := { s.setup with part := .unset, candidate := none },
      alerts := (s.alerts.giveApplyResult new.generation r.code r.index).latch .setupRejected } := by
  rw [State.fetchEnded, h]

theorem State.fetchEnded_installed {s : State} {new : Image} (h : new.validate s.setup.blockAddress = none) :
    s.fetchEnded new = s.inForceOf [] new false := by
  rw [State.fetchEnded, h]

theorem State.fetchEnded_setup (new : Image) (s : State) : (s.fetchEnded new).setup = { s.setup with
    active := if new.validate s.setup.blockAddress = none then some new else s.setup.active, candidate := none,
    part := if new.validate s.setup.blockAddress = none then .active else .unset } := by
  cases h : new.validate s.setup.blockAddress with
  | none =>
    rw [State.fetchEnded_installed h]
    exact State.installUnits_setup [] new false s
  | some r => rw [State.fetchEnded_rejected h]; rfl

/-- The end of a fetch: every group owed, and an apply begun where the generation has changed meanwhile. -/
theorem State.completeFetch_form {s : State} {new : Image} (h : s.setup.candidate = some new) :
    s.completeFetch = { s.fetchEnded new with
      setup := { s.setup with
        lastCommand := s.setup.shadow.get 2,
        active := if new.validate s.setup.blockAddress = none then some new else s.setup.active,
        candidate := if s.setup.shadow.get 1 = new.get 1 then none else some (s.setup.shadow.below 1352),
        part := if ¬ s.setup.shadow.get 1 = new.get 1 then .applying .validate
          else if new.validate s.setup.blockAddress = none then .active else .unset },
      alerts := { (s.fetchEnded new).alerts with owed := .everything } } := by
  have hended : s.completeFetch = if s.setup.shadow.get 1 = new.get 1 then (s.fetchEnded new).endFetch
      else (s.fetchEnded new).endFetch.startApply := by
    rw [State.completeFetch, State.candidateImage_of_some h]
    rfl
  have hsetup := s.fetchEnded_setup new
  rw [hended]
  by_cases hsame : s.setup.shadow.get 1 = new.get 1
  · simp only [hsame, if_true, not_true_eq_false, if_false, State.endFetch, State.shadowCommand, hsetup]
  · simp only [hsame, if_false, not_false_eq_true, if_true, State.startApply, State.setPart, State.endFetch,
      State.shadowCommand, hsetup]
    rfl

/-- With every group owed, a mirror write stands requested outside FETCHING. -/
theorem State.requestMirror_isSome {s : State} (hpart : s.setup.part ≠ .fetching)
    (howed : s.alerts.owed.latched = true) : s.requestMirror.alerts.mirror.isSome = true := by
  cases hmirror : s.alerts.mirror with
  | some g => rw [State.requestMirror_of_some hmirror, Option.isSome_some]
  | none => rw [State.requestMirror_of_none hmirror, if_neg hpart, groupOrder_first _ howed, Option.isSome_some]

theorem Owed.everything_has (g : Group) : Owed.everything.has g = true := by cases g <;> rfl

theorem Image.isHead_nil (n : Fin 16) : Image.isHead [] n = false := by
  rw [Image.isHead, Image.kind_nil]

theorem Image.channel_nil_disabled (e : Fin 256) : (Image.channel [] e).enabled = false := by
  simp [Image.channel, Image.get, bits]

/-- Settles O49: the fetch's end rejected or installed, and what neither touches. -/
theorem fetchEndsInstalledOrRejected : Obligations.FetchEndsInstalledOrRejected := by
  unfold Obligations.FetchEndsInstalledOrRejected
  intro s new hsteady hpart hposition hnew same
  have hcan : (s.steady && s.setup.part == .fetching && s.setup.fetchPosition == 128 &&
      s.setup.candidate.isSome) = true := by
    rw [hsteady, hpart, hposition, hnew]
    rfl
  have hcomplete := State.completeFetch_form hnew
  have hrequested : s.completeFetch.requestMirror.alerts.mirror.isSome = true := by
    refine State.requestMirror_isSome ?_ ?_
    · rw [hcomplete]
      by_cases hsame : s.setup.shadow.get 1 = new.get 1
      · by_cases hvalid : new.validate s.setup.blockAddress = none <;> simp [hsame, hvalid]
      · simp [hsame]
    · rw [hcomplete]
      rfl
  obtain ⟨m, hexec⟩ := stepWhen_of_eq hcan hcomplete
  have hmirror : m.isSome = true := by
    have hsame := Host.Outcome.next.inj (hexec.symm.trans (stepWhen_can State.completeFetch s hcan))
    exact (congrArg (fun t : State => t.alerts.mirror.isSome) hsame :).trans hrequested
  refine ⟨_, hexec, ?_⟩
  cases hvalid : new.validate s.setup.blockAddress with
  | some r =>
    rw [State.fetchEnded_rejected hvalid]
    refine ⟨rfl, hmirror, Owed.everything_has, fun r' hr => ?_, nofun, rfl, rfl, rfl, rfl, rfl, rfl, rfl, rfl,
      Alerts.latch_commandResult _ _, Alerts.latch_readHold _ _, rfl, rfl, rfl, rfl⟩
    obtain rfl : r = r' := Option.some.inj hr
    exact ⟨Alerts.latch_applyResult _ _, Alerts.has_latch_self _ _, rfl, rfl, rfl, rfl, rfl,
      Alerts.latch_counters _ _, Alerts.latch_reportTimer _ _⟩
  | none =>
    obtain ⟨al, hform, hresult, -, -, hcounters, htimer, ⟨hcommand, hhold⟩, hhas⟩ := s.inForceOf_form [] new false
    rw [State.fetchEnded_installed hvalid, hform]
    refine ⟨rfl, hmirror, Owed.everything_has, nofun, fun _ => ⟨hresult, ?_, ?_, rfl,
      fun i => ?_, fun n hkind => ⟨?_, ?_⟩, fun n hkind => ⟨?_, ?_⟩, fun h => ?_, fun e => ?_, fun i => ?_, ?marks⟩,
      rfl, rfl, rfl, rfl, rfl, rfl, rfl, rfl, hcommand, hhold, rfl, rfl, rfl, rfl⟩
    · exact (hhas .setupApplied).trans (by rw [decide_eq_true rfl, Bool.or_true])
    · exact htimer.trans ((Alerts.installed_reportTimer _ _ _ _).trans (if_neg (by simp)))
    · exact (Intake.installed_window _ _ _ _ i).trans (if_neg (by simp))
    · refine (LineUnit.installed_line _ _ _ n).trans ((Line.installed_changed ?_ _ _).trans ?_)
      · rw [Image.kind_nil]
        exact hkind.symm
      · simp [Image.kind_nil, hkind]
    · exact (Writer.installed_ring _ _ _ n).trans ((if_neg hkind).trans (if_pos (.inl (Image.kind_nil n))))
    · exact (LineUnit.installed_line _ _ _ n).trans (Line.installed_same ((Image.kind_nil n).trans hkind.symm) _ _)
    · exact (Writer.installed_ring _ _ _ n).trans (if_pos hkind)
    · refine (LineUnit.installed_bound _ _ _ h).trans ?_
      simp [Image.isHead_nil]
    · refine (Channels.installed_meter _ _ _ e).trans ((Meter.installed_eq _ _ _).trans ?_)
      simp [Image.channel_nil_disabled]
    · refine (congrArg (fun v : Vector Counter 4 => v[i]) hcounters).trans ?_
      exact (Alerts.installed_counter _ _ _ _ i).trans (if_neg (by simp))
    case marks =>
      intro drops outside
      exact ⟨s.requestAt_iff new, rfl, s.spillsOn_iff new, s.releasesAt_iff new⟩

end Sys2Proof.Machine
end

section
/-! SUPPORT. A write burst at the open port: the guard region list, the hold test and the four answers (R1, R2, R6,
R11, R12). -/

namespace Sys2Proof.Machine

/-! ### The open port (R1, R4) -/

theorem Pass.open_iff (p : Pass) : p.open = true ↔
    p.slot = none ∧ p.heldWrite = none ∧ p.heldRead = none ∧ p.observation = none := by
  simp only [Pass.open, Bool.and_eq_true, Option.isNone_iff_eq_none, and_assoc]

theorem State.portOpen_iff (s : State) : s.portOpen = true ↔ s.steady = true ∧
    s.pass.slot = none ∧ s.pass.heldWrite = none ∧ s.pass.heldRead = none ∧ s.pass.observation = none := by
  rw [State.portOpen, Bool.and_eq_true, Pass.open_iff]

theorem State.uready_iff (s : State) : s.uready = true ↔ s.inReset = false ∧
    s.pass.slot = none ∧ s.pass.heldWrite = none ∧ s.pass.heldRead = none ∧ s.pass.observation = none := by
  rw [State.uready, Bool.and_eq_true, Bool.not_eq_true', Pass.open_iff]

/-! ### The hold test and the answers (R2, R6, R12) -/

theorem State.holds_iff (s : State) (a : Nat) : s.holds a = true ↔
    (s.setup.part = .active ∨ ∃ p, s.setup.part = .applying p) ∧ (∃ i : Fin 4, (s.cfg.window i).holds a = true) ∧
      s.intake.holdRequest = true ∧ s.pass.spilling = false := by
  have hwindow : (s.cfg.windowAt a).isSome = true ↔ ∃ i : Fin 4, (s.cfg.window i).holds a = true := by
    rw [Option.isSome_iff_ne_none, ne_eq, s.cfg.windowAt_eq_none_iff]
    simp only [not_forall, not_not]
  simp only [State.holds, Bool.and_eq_true, Bool.not_eq_true', Part.working_iff, hwindow, and_assoc]

theorem State.presentWrite_malformed {a : Nat} {ws : List WriteWord} (s : State) (h : 2 ^ 32 < a + 4 * ws.length) :
    s.presentWrite a ws = { s with pass := { s.pass with lastAnswer := some .error } } :=
  if_pos (decide_eq_true h)

theorem State.presentWrite_held {a : Nat} {ws : List WriteWord} {s : State} (hfit : ¬ 2 ^ 32 < a + 4 * ws.length)
    (hhold : s.holds a = true) : s.presentWrite a ws = { s with
      pass := { s.pass with
        heldWrite := some (a, ws), holdTimer := some s.cfg.holdLimit, releaseDue := false },
      alerts := s.alerts.rise .holding } := by
  rw [State.presentWrite, malformed_eq_false hfit, if_neg Bool.false_ne_true, if_pos hhold]
  rfl

theorem State.presentWrite_accepted {a : Nat} {ws : List WriteWord} {s : State} (hfit : ¬ 2 ^ 32 < a + 4 * ws.length)
    (hhold : ¬ s.holds a = true) : s.presentWrite a ws = s.acceptWrite a ws := by
  rw [State.presentWrite, malformed_eq_false hfit, if_neg Bool.false_ne_true, if_neg hhold]

/-! ### The guard region list (R11) -/

/-- The part works under the setup `m`. -/
def State.WorksUnder (m : Image) (s : State) : Prop :=
  s.setup.active = some m ∧ (s.setup.part = .active ∨ ∃ p, s.setup.part = .applying p)

/-- The address lies in a guarded word of ring `n`: the producer index word or a record slot from 1 on. -/
def Image.GuardsRing (m : Image) (n : Fin 16) (a : Nat) : Prop :=
  (m.ringBase n ≤ a ∧ a < m.ringBase n + 4) ∨
    (m.ringBase n + 64 ≤ a ∧ a < m.ringBase n + 64 + 64 * m.ringSize n)

theorem State.guarded_iff {s : State} {m : Image} (h : s.WorksUnder m) (a : Nat) : s.guarded a = true ↔
    (s.setup.statusAddress ≤ a ∧ a < s.setup.statusAddress + 256) ∨
      ∃ n : Fin 16, m.kind n ≠ .none ∧ m.GuardsRing n a := by
  obtain ⟨hactive, hpart⟩ := h
  have hguarded : s.guarded a = ((decide (s.setup.statusAddress ≤ a) && decide (a < s.setup.statusAddress + 256)) ||
      allLines.any (fun n => m.ringInForce n &&
        ((decide (m.ringBase n ≤ a) && decide (a < m.ringBase n + 4)) ||
         (decide (m.ringBase n + 64 ≤ a) && decide (a < m.ringBase n + 64 + 64 * m.ringSize n))))) := by
    rcases hpart with hpart | ⟨p, hpart⟩ <;> simp only [State.guarded, hpart, hactive]
  rw [hguarded]
  simp only [allLines, Bool.or_eq_true, Bool.and_eq_true, decide_eq_true_eq, List.any_eq_true, List.mem_finRange,
    true_and, Image.ringInForce_iff, Image.GuardsRing]

/-- A guarded word of a ring, its record slot by number. -/
theorem Image.guardsRing_iff_slot (m : Image) (n : Fin 16) (a : Nat) : m.GuardsRing n a ↔
    (m.ringBase n ≤ a ∧ a < m.ringBase n + 4) ∨
      ∃ slot, 1 ≤ slot ∧ slot ≤ m.ringSize n ∧ m.ringBase n + 64 * slot ≤ a ∧ a < m.ringBase n + 64 * slot + 64 := by
  refine or_congr_right ⟨fun ⟨hlow, hhigh⟩ => ⟨(a - m.ringBase n) / 64, ?_⟩, fun ⟨slot, hone, hsize, hlow, hhigh⟩ => ?_⟩
  · omega
  · omega

/-- A guarded word of a ring lies in the ring's span, outside words 1 to 15 of its slot 0. -/
theorem Image.GuardsRing.inSpan {m : Image} {n : Fin 16} {a : Nat} (h : m.GuardsRing n a) :
    m.ringBase n ≤ a ∧ a < m.ringBase n + 64 * (m.ringSize n + 1) ∧
      ¬ (m.ringBase n + 4 ≤ a ∧ a < m.ringBase n + 64) := by
  unfold Image.GuardsRing at h
  omega

theorem State.guarded_eq_false {s : State}
    (h : s.setup.part = .fetching ∨ s.setup.part = .unset ∨ s.setup.active = none) (a : Nat) : s.guarded a = false := by
  rcases h with hpart | hpart | hactive
  · simp [State.guarded, hpart]
  · simp [State.guarded, hpart]
  · cases hpart : s.setup.part <;> simp [State.guarded, hpart, hactive]

/-- Under a validated setup a word of the setup block, of the tally table or of words 1 to 15 of a ring's slot 0 is not
guarded. -/
theorem State.guarded_eq_false_of_validate {s : State} {m : Image} (hworks : s.WorksUnder m)
    (hvalid : m.validate s.setup.blockAddress = none) {a : Nat}
    (ha : (∃ n : Fin 16, m.kind n ≠ .none ∧ m.ringBase n + 4 ≤ a ∧ a < m.ringBase n + 64) ∨
      (s.setup.blockAddress ≤ a ∧ a < s.setup.blockAddress + 8192) ∨
      (m.tallyBase ≤ a ∧ a < m.tallyBase + 33280)) : s.guarded a = false := by
  obtain ⟨-, -, -, -, -, hrings, -, -, htally⟩ := Image.apart_of_validate hvalid
  have hstatus : s.setup.statusAddress = s.setup.blockAddress + 8192 := rfl
  rw [← Bool.not_eq_true, State.guarded_iff hworks]
  rintro (⟨hlow, hhigh⟩ | ⟨k, hkind, hguards⟩)
  · rcases ha with ⟨n, hring, hfirst, hlast⟩ | hblock | ⟨hfirst, hlast⟩
    · obtain ⟨-, -, hblock, -⟩ := hrings n hring
      exact hblock ⟨a, by omega, by omega, by omega, by omega⟩
    · omega
    · exact htally ⟨a, hfirst, hlast, by omega, by omega⟩
  · obtain ⟨hbase, hend, hslot⟩ := hguards.inSpan
    obtain ⟨-, -, hblock, htable, hother, -⟩ := hrings k hkind
    rcases ha with ⟨n, hring, hfirst, hlast⟩ | ⟨hfirst, hlast⟩ | ⟨hfirst, hlast⟩
    · by_cases hn : n = k
      · subst hn
        exact hslot ⟨hfirst, hlast⟩
      · exact hother n hn hring ⟨a, hbase, hend, by omega, by omega⟩
    · exact hblock ⟨a, hbase, hend, hfirst, by omega⟩
    · exact htable ⟨a, hbase, hend, hfirst, hlast⟩

/-- Settles O19: the port, the answers by the hold test and the guard, the guard region list. -/
theorem upstreamWriteIsHeldGuardedOrTaken : Obligations.UpstreamWriteIsHeldGuardedOrTaken := by
  unfold Obligations.UpstreamWriteIsHeldGuardedOrTaken
  refine ⟨fun s => ⟨s.portOpen_iff, s.uready_iff⟩, fun a ws s hburst hopen => ?write, fun s m a hactive hpart => ?list,
    fun s a hnone => State.guarded_eq_false hnone a⟩
  case write =>
    intro malformed held touches
    have hexec : exec (.upstreamWrite a ws) s = stepWhen s.portOpen (State.presentWrite a.toNat ws) s := if_pos hburst
    have hheld : s.holds a.toNat = true ↔ held := s.holds_iff a.toNat
    have htouches : s.touchesGuard a.toNat ws.length = true ↔ touches := s.touchesGuard_iff _ _
    rw [hexec]
    refine ⟨fun hmalformed => stepWhen_of_eq hopen (s.presentWrite_malformed hmalformed),
      fun hfit hhold => stepWhen_of_eq hopen (State.presentWrite_held hfit (hheld.mpr hhold)), ?_, ?_, ?_⟩
    all_goals
      intro hfit hhold hguard
      have haccept := (State.presentWrite_accepted hfit (mt hheld.mp hhold)).trans (s.acceptWrite_eq a.toNat ws)
    · rw [if_pos (Bool.eq_false_of_not_eq_true (mt htouches.mp hguard))] at haccept
      exact stepWhen_of_eq hopen haccept
    · intro hmark
      rw [if_neg (ne_of_eq_of_ne (htouches.mpr hguard) Bool.false_ne_true.symm), if_neg hmark] at haccept
      exact stepWhen_of_eq hopen haccept
    · intro hrefuse
      rw [if_neg (ne_of_eq_of_ne (htouches.mpr hguard) Bool.false_ne_true.symm), if_pos hrefuse] at haccept
      exact stepWhen_of_eq hopen haccept
  case list =>
    have hworks : s.WorksUnder m := ⟨hactive, hpart⟩
    refine ⟨?_, fun hvalid ha => State.guarded_eq_false_of_validate hworks hvalid ha⟩
    simp only [State.guarded_iff hworks, Image.guardsRing_iff_slot]

end Sys2Proof.Machine
end

section
/-! SUPPORT. Which commands can arise: the conditions of each step, and what a command does where they do not hold. -/

namespace Sys2Proof.Machine

/-! ### Steps that cannot arise -/

/-- A step leaves the state where what it needs does not hold. -/
theorem stepWhen_unless {can : Bool} {f : State → State} {s : State} {met : Prop} (h : can = true → met)
    (hnot : ¬ met) : stepWhen can f s = .next s :=
  stepWhen_cannot f s (Bool.eq_false_of_not_eq_true fun hcan => hnot (h hcan))

/-- A step of a steady part. -/
theorem stepWhen_steady_unless {s : State} {can : Bool} {f : State → State} {met : Prop} (h : can = true → met)
    (hnot : ¬ (s.steady = true ∧ met)) : stepWhen (s.steady && can) f s = .next s :=
  stepWhen_unless (fun hcan => (Bool.and_eq_true_iff.mp hcan).imp_right h) hnot

/-! ### The answer that the port waits for -/

theorem Port.carries_recordWrite {p : Port} (h : p.isRecordWrite = true) : ∃ txn, p = .internal .recordWrite txn := by
  unfold Port.isRecordWrite at h
  split at h
  · exact ⟨_, rfl⟩
  · contradiction

theorem Port.carries_indexWrite {p : Port} (h : p.isIndexWrite = true) : ∃ txn, p = .internal .indexWrite txn := by
  unfold Port.isIndexWrite at h
  split at h
  · exact ⟨_, rfl⟩
  · contradiction

theorem Port.carries_initialisingWrite {p : Port} (h : p.isInitialisingWrite = true) :
    ∃ n txn, p = .internal (.initialisingWrite n) txn := by
  unfold Port.isInitialisingWrite at h
  split at h
  · exact ⟨_, _, rfl⟩
  · contradiction

theorem Port.carries_reserveRead {p : Port} (h : p.isReserveRead = true) : ∃ txn, p = .internal .reserveRead txn := by
  unfold Port.isReserveRead at h
  split at h
  · exact ⟨_, rfl⟩
  · contradiction

theorem Port.carries_conditionalWrite {p : Port} (h : p.isConditionalWrite = true) :
    ∃ txn, p = .internal .conditionalWrite txn := by
  unfold Port.isConditionalWrite at h
  split at h
  · exact ⟨_, rfl⟩
  · contradiction

theorem Port.carries_fetch {p : Port} (h : p.isFetch = true) : ∃ txn, p = .internal .fetch txn := by
  unfold Port.isFetch at h
  split at h
  · exact ⟨_, rfl⟩
  · contradiction

theorem Port.carries_mirror {p : Port} (h : p.isMirror = true) : ∃ g txn, p = .internal (.mirror g) txn := by
  unfold Port.isMirror at h
  split at h
  · exact ⟨_, _, rfl⟩
  · contradiction

theorem Port.isInitialisingWrite_of_internal {p : Port} {n : Fin 16} {txn : Txn}
    (h : p = .internal (.initialisingWrite n) txn) : p.isInitialisingWrite = true := by
  subst h
  rfl

/-- The response fits the transaction in the slot. -/
theorem State.passthroughAnswered_fits {s : State} {answer : PassAnswer} (h : s.passthroughAnswered answer = true) :
    s.pass.port = .passthrough ∧ ((s.pass.slot.isSome = true ∧ answer = .error) ∨
      (∃ a ws, s.pass.slot = some (.write a ws) ∧ answer = .ok []) ∨
      ∃ a es data, s.pass.slot = some (.read a es) ∧ answer = .ok data ∧ data.length = es.length) := by
  rw [State.passthroughAnswered, Bool.and_eq_true, beq_iff_eq] at h
  obtain ⟨hport, hfits⟩ := h
  refine ⟨hport, ?_⟩
  cases hslot : s.pass.slot with
  | none => simp [hslot] at hfits
  | some t =>
    rw [hslot] at hfits
    cases answer with
    | error => exact .inl ⟨rfl, rfl⟩
    | ok data =>
      cases t with
      | write a ws =>
        have hdata : data = [] := by simpa [Txn.fits] using hfits
        exact .inr (.inl ⟨a, ws, rfl, by rw [hdata]⟩)
      | read a es =>
        have hdata : data.length = es.length := by simpa [Txn.fits] using hfits
        exact .inr (.inr ⟨a, es, data, rfl, rfl, hdata⟩)

/-! ### The deliveries of a notice (R144, R188) -/

theorem State.captureReady_iff (s : State) :
    s.captureReady = true ↔ ∃ n, s.pass.notice = some n ∧ n.captureDue = true := by
  unfold State.captureReady
  cases s.pass.notice <;> simp

theorem State.clockReady_iff (s : State) :
    s.clockReady = true ↔ ∃ n, s.pass.notice = some n ∧ n.clockDue = true ∧ n.captureDue = false := by
  unfold State.clockReady
  cases s.pass.notice <;> simp

theorem State.generationReady_iff (s : State) : s.generationReady = true ↔
    ∃ n, s.pass.notice = some n ∧ n.generationDue = true ∧ n.captureDue = false ∧ n.clockDue = false := by
  unfold State.generationReady
  cases s.pass.notice <;> simp [and_assoc]

theorem State.consumerReady_iff (s : State) :
    s.consumerReady = true ↔ ∃ n, s.pass.notice = some n ∧ n.consumerDue = true := by
  unfold State.consumerReady
  cases s.pass.notice <;> simp

/-- A command step needs a changed command word delivered, of a code that it takes. -/
theorem State.commandReady_delivered {s : State} {codes : Nat → Bool} (h : s.commandReady codes = true) :
    (∃ n, s.CommandDelivered n) ∧ codes ((s.setup.shadow.get 2).toNat % 256) = true := by
  simp only [State.commandReady, Bool.and_eq_true, Bool.not_eq_true', commandCode_eq, State.shadowCommand] at h
  obtain ⟨⟨hreset, hcode⟩, hnext⟩ := h
  refine ⟨?_, hcode⟩
  cases hnotice : s.pass.notice with
  | none => simp [hnotice] at hnext
  | some n =>
    simp only [hnotice, Notice.commandNext, Bool.and_eq_true, Bool.not_eq_true'] at hnext
    obtain ⟨⟨⟨hdue, hcapture⟩, hclock⟩, hgeneration⟩ := hnext
    exact ⟨n, hreset, hnotice, hdue, hcapture, hclock, hgeneration⟩

/-- A command step of one code. -/
theorem State.commandReady_code {s : State} {k : Nat} (h : s.commandReady (· == k) = true) :
    (∃ n, s.CommandDelivered n) ∧ (s.setup.shadow.get 2).toNat % 256 = k :=
  (s.commandReady_delivered h).imp_right beq_iff_eq.mp

/-! ### Conditions of the units -/

theorem LineUnit.dueHead_isSome_iff (u : LineUnit) : u.dueHead.isSome = true ↔
    ∃ (h : Fin 16) (b : Bound), u.bounds[h] = some b ∧ b.bin ≤ u.clock.toNat := by
  rw [Option.isSome_iff_ne_none, ne_eq, LineUnit.dueHead_eq_none_iff]
  simp only [not_forall, not_lt, exists_prop]

/-- The rings are clear, by the candidate as it stands. -/
theorem State.ringsClear_candidate (s : State) : s.ringsClear = true ↔
    (∀ r ∈ s.writer.queue, leavingRing s.cfg (s.setup.candidate.getD []) r.line = false ∧
      ringRestarts s.cfg (s.setup.candidate.getD []) r.line = false) ∧
    ∀ k ∈ s.lines.handOver, leavingRing s.cfg (s.setup.candidate.getD []) k.2 = false := by
  simp only [State.ringsClear, State.candidateImage, Bool.and_eq_true, List.all_eq_true, Bool.not_eq_true',
    Bool.or_eq_false_iff]

/-! ### Well-formed commands -/

theorem burstWellFormed_iff (a : Word) (k : Nat) :
    burstWellFormed a k = true ↔ a.toNat % 4 = 0 ∧ 1 ≤ k ∧ k ≤ 16 := by
  simp only [burstWellFormed, Bool.and_eq_true, decide_eq_true_eq, and_assoc]

theorem Instr.wellFormed_iff (c : Instr) : c.wellFormed = true ↔
    (∀ a ws, c = .upstreamWrite a ws → burstWellFormed a ws.length = true) ∧
    (∀ a es, c = .upstreamRead a es → burstWellFormed a es.length = true) ∧
    ∀ data, c = .passthroughResponse (.ok data) → data.length ≤ 16 := by
  constructor
  · intro h
    refine ⟨?_, ?_, ?_⟩
    · rintro a ws rfl
      exact h
    · rintro a es rfl
      exact h
    · rintro data rfl
      exact of_decide_eq_true h
  · rintro ⟨hwrite, hread, hdata⟩
    cases c
    case upstreamWrite a ws => exact hwrite a ws rfl
    case upstreamRead a es => exact hread a es rfl
    case passthroughResponse answer =>
      cases answer with
      | ok data => exact decide_eq_true (hdata data rfl)
      | error => rfl
    all_goals rfl

/-- A command that the ports can carry answers a next state. -/
theorem exec_answersNext {c : Instr} (h : c.wellFormed = true) (s : State) : ∃ t, exec c s = .next t := by
  cases c
  case upstreamWrite a ws => exact ⟨_, if_pos h⟩
  case upstreamRead a es => exact ⟨_, if_pos h⟩
  all_goals exact ⟨_, rfl⟩

/-- Every command leaves the queue's rest. -/
theorem exec_pending {c : Instr} {s t : State} (e : exec c s = .next t) : t.pending = s.pending := by
  by_cases hassert : c = .resetAssert
  · subst hassert
    obtain rfl := Host.Outcome.next.inj e
    rfl
  · by_cases hrelease : ∃ straps, c = .resetRelease straps
    · obtain ⟨straps, rfl⟩ := hrelease
      have hstep : stepWhen s.inReset
          (fun s => State.hardReset s.pending false s.pass.port.orphaned straps s.tally.draws) s = .next t := e
      rcases stepWhen_next hstep with ⟨-, rfl⟩ | ⟨-, rfl⟩ <;> rfl
    · exact (exec_outer hassert (fun straps hc => hrelease ⟨straps, hc⟩) e).1

/-- Settles O3: well-formedness, the next state, the faults, and each command's conditions. -/
theorem everyPortCommandAnswersNext : Obligations.EveryPortCommandAnswersNext := by
  unfold Obligations.EveryPortCommandAnswersNext
  refine ⟨burstWellFormed_iff, Instr.wellFormed_iff, fun c s hwf => ?next, fun a ws s hburst => ?write,
    fun a es s hburst => ?read, fun c s hwf => ?unmet⟩
  case next =>
    obtain ⟨t, hexec⟩ := exec_answersNext hwf s
    exact ⟨t, hexec, exec_pending hexec⟩
  case write => exact if_neg (Bool.eq_false_iff.mp hburst)
  case read => exact if_neg (Bool.eq_false_iff.mp hburst)
  case unmet =>
    cases c <;> intro carried delivers commands new clear met hnot
    case resetAssert => exact absurd trivial hnot
    case resetRelease straps =>
      simp only [exec, execResetRelease]
      exact stepWhen_unless id hnot
    case tickPulse => exact stepWhen_unless (Bool.not_eq_true' _).mp hnot
    case clockAdvance => exact stepWhen_unless (fun hcan => by simpa [and_assoc] using hcan) hnot
    case assemblyTimeout w =>
      simp only [exec, execAssemblyTimeout]
      exact stepWhen_unless (fun hcan => by simpa [and_assoc, met] using hcan) hnot
    case staleExpiry e =>
      exact stepWhen_unless (fun hcan => by simpa [and_assoc, or_assoc, Meter.trusted_iff, met] using hcan) hnot
    case changeoverTimerExpiry n =>
      simp only [exec, execChangeoverTimerExpiry]
      exact stepWhen_unless (fun hcan => by simpa [and_assoc, met] using hcan) hnot
    case binBoundaryExpiry =>
      exact stepWhen_unless (fun hcan => (Bool.and_eq_true_iff.mp hcan).imp (Bool.not_eq_true' _).mp
        s.lines.dueHead_isSome_iff.mp) hnot
    case reportTimerExpiry => exact stepWhen_steady_unless beq_iff_eq.mp hnot
    case holdLimitExpiry => exact stepWhen_unless (fun hcan => by simpa [and_assoc] using hcan) hnot
    case backoffExpiry =>
      simp only [exec, execBackoffExpiry]
      exact stepWhen_unless (fun hcan => by simpa [and_assoc] using hcan) hnot
    case upstreamWrite a ws => exact (if_pos hwf).trans (stepWhen_unless id hnot)
    case upstreamRead a es => exact (if_pos hwf).trans (stepWhen_unless id hnot)
    case holdRelease => exact stepWhen_unless (fun hcan => by simpa [and_assoc] using hcan) hnot
    case readHoldRelease => exact stepWhen_unless (fun hcan => by simpa [and_assoc] using hcan) hnot
    case arbiterDecision => exact stepWhen_steady_unless beq_iff_eq.mp hnot
    case setupCapture =>
      exact stepWhen_unless (fun hcan => (Bool.and_eq_true_iff.mp hcan).imp (Bool.not_eq_true' _).mp
        s.captureReady_iff.mp) hnot
    case clockWordWrite =>
      exact stepWhen_unless (fun hcan => (Bool.and_eq_true_iff.mp hcan).imp_left fun hready =>
        (Bool.and_eq_true_iff.mp hready).imp (Bool.not_eq_true' _).mp s.clockReady_iff.mp) hnot
    case generationWrite =>
      exact stepWhen_unless (fun hcan => (Bool.and_eq_true_iff.mp hcan).imp (Bool.not_eq_true' _).mp
        s.generationReady_iff.mp) hnot
    case consumerIndexWrite =>
      exact stepWhen_unless (fun hcan => (Bool.and_eq_true_iff.mp hcan).imp (Bool.not_eq_true' _).mp
        s.consumerReady_iff.mp) hnot
    case latchedAlertRead => exact stepWhen_steady_unless id hnot
    case noCommand => exact stepWhen_unless State.commandReady_code hnot
    case closeBins =>
      exact stepWhen_unless (fun hcan => (Bool.and_eq_true_iff.mp hcan).imp_left State.commandReady_code) hnot
    case restart =>
      exact stepWhen_unless (fun hcan => (Bool.and_eq_true_iff.mp hcan).imp_left State.commandReady_code) hnot
    case reprime => exact stepWhen_unless State.commandReady_code hnot
    case transferCounters => exact stepWhen_unless State.commandReady_code hnot
    case injectCheckFault => exact stepWhen_unless State.commandReady_code hnot
    case undefinedCommand =>
      exact stepWhen_unless (fun hcan => (s.commandReady_delivered hcan).imp_right of_decide_eq_true) hnot
    case passthroughResponse answer => exact stepWhen_steady_unless State.passthroughAnswered_fits hnot
    case recordTake =>
      exact stepWhen_unless (fun hcan => by simpa [and_assoc, Part.working_iff] using hcan) hnot
    case handOver => exact stepWhen_unless (fun hcan => by simpa [and_assoc] using hcan) hnot
    case tallyMissHandOver => exact stepWhen_unless (fun hcan => by simpa [and_assoc] using hcan) hnot
    case takeIntoHand =>
      refine stepWhen_unless (fun hcan => ?_) hnot
      simp only [Bool.and_eq_true, Bool.not_eq_true', Writer.initOwed_eq_false_iff, Option.isNone_iff_eq_none,
        List.isEmpty_eq_false_iff, and_assoc] at hcan
      obtain ⟨hsteady, hstep, hqueue, hinit, hport⟩ := hcan
      refine ⟨hsteady, hstep, hqueue, hinit, fun n ⟨txn, hcarried⟩ => ?_⟩
      exact Bool.false_ne_true (hport.symm.trans (Port.isInitialisingWrite_of_internal hcarried))
    case recordWriteResponse answer => exact stepWhen_steady_unless Port.carries_recordWrite hnot
    case indexWriteResponse answer => exact stepWhen_steady_unless Port.carries_indexWrite hnot
    case initialisingWriteResponse answer => exact stepWhen_steady_unless Port.carries_initialisingWrite hnot
    case updateIntoHand =>
      simp only [exec, execUpdateIntoHand]
      exact stepWhen_unless (fun hcan => by simpa [and_assoc] using hcan) hnot
    case reserveReadResponse answer => exact stepWhen_steady_unless Port.carries_reserveRead hnot
    case conditionalWriteResponse answer => exact stepWhen_steady_unless Port.carries_conditionalWrite hnot
    case fetchReadResponse answer =>
      refine stepWhen_unless (fun hcan => ?_) hnot
      simp only [Bool.and_eq_true, beq_iff_eq, and_assoc] at hcan
      obtain ⟨hsteady, hpart, hport⟩ := hcan
      exact ⟨hsteady, hpart, Port.carries_fetch hport⟩
    case fetchValidationCompletion => exact stepWhen_unless (fun hcan => by simpa [and_assoc] using hcan) hnot
    case mirrorWriteResponse answer => exact stepWhen_steady_unless Port.carries_mirror hnot
    case validationCompletion => exact stepWhen_unless (fun hcan => by simpa [and_assoc] using hcan) hnot
    case quiesceMet =>
      refine stepWhen_unless (fun hcan => ?_) hnot
      simp only [Bool.and_eq_true, beq_iff_eq, State.quiesced_iff, State.ringsClear_candidate, and_assoc] at hcan
      obtain ⟨hsteady, hpart, hcloses, hhand, hqueue, hlist, hbase⟩ := hcan
      exact ⟨hsteady, hpart, hcloses, hhand, ⟨hqueue, hlist⟩, fun old hnew hold hchanges =>
        hbase ⟨new, old, hnew, hold, hchanges⟩⟩
    case installation =>
      refine stepWhen_unless (fun hcan => ?_) hnot
      simpa only [Bool.and_eq_true, beq_iff_eq, State.ringsClear_candidate, and_assoc] using hcan
    case discardedDownstreamResponse => exact stepWhen_unless beq_iff_eq.mp hnot

end Sys2Proof.Machine
end
